-- ==== Sys2Proof/Word.lean ====
section
/-! DEFINITION. Words, bytes, the numbers that name things, and fixed-size tables. -/

namespace Sys2Proof

/-- A word of the window: 16 bits (00_scope, "Words and bytes"). -/
abbrev Word := BitVec 16

/-- A byte of payload: 8 bits (00_scope, "Words and bytes"). -/
abbrev Byte := BitVec 8

/-- The number of a host, which is the number of its port (R1). -/
abbrev HostId := Fin 4

/-- The number of a lease, L0 to L63 (R20). -/
abbrev LeaseId := Fin 64

/-- The number of a descriptor, D0 to D47 (R81). -/
abbrev DescId := Fin 48

/-- The number of a cell (R84). -/
abbrev CellId := Fin 128

/-- One thing kept for each of the four hosts. -/
abbrev PerHost (α : Type) := Vector α 4

/-- The table with one entry replaced. -/
def upd {α : Type} {n : Nat} (v : Vector α n) (i : Fin n) (x : α) : Vector α n := v.set i.val x i.isLt

/-- The four hosts in number order. -/
def allHosts : List HostId := List.finRange 4

/-- The 64 leases in number order. -/
def allLeases : List LeaseId := List.finRange 64

/-- The 48 descriptors in number order. -/
def allDescs : List DescId := List.finRange 48

/-- The 128 cells in number order. -/
def allCells : List CellId := List.finRange 128

/-- A set of hosts, one bit a host: bit n stands for host n, as QUERY reports holders (R40). -/
abbrev HostSet := BitVec 4

/-- A word that holds a number. -/
def word (n : Nat) : Word := BitVec.ofNat 16 n

/-- The word that stands for "none" in an optional lease or host field (00_scope, "Optional values"). -/
def noneWord : Word := 0xFFFF#16

end Sys2Proof
end

