-- ==== Sys2Proof/Config.lean ====
section
/-! DEFINITION. What the part fixes: sizes, limits, the ranges and defaults of the six settings. The spec leaves no
result value open, so there is no free value here (the open points are choices of the log). -/

namespace Sys2Proof.Config

/-- A notice ring holds at most 8 records (R136). -/
def ringCapacity : Nat := 8

/-- The lost count stays at 255 once it is there (R136). -/
def lostLimit : Nat := 255

/-- The argument frame holds at most 8 words (R165). -/
def frameCapacity : Nat := 8

/-- The highest session number; the next join goes to 1 (R3). -/
def sessionLimit : Nat := 255

/-- Bytes in one cell (R84). -/
def cellBytes : Nat := 16

/-- The longest message, in bytes (R81). -/
def maxLength : Nat := 240

/-- The most cells one message has (R81). -/
def maxCells : Nat := 15

/-- CORRECTED stays at 65535 once it is there (R153). -/
def correctedLimit : Nat := 65535

/-- UNCORRECTED stays at 255 once it is there (R153). -/
def uncorrectedLimit : Nat := 255

/-- The device revision code (R152, R167). -/
def revision : Nat := 1

/-- The wait argument that asks for a wait without deadline (R27, R93). -/
def noDeadline : Nat := 65535

/-- What a byte of payload that nothing has written reads as. DESIGN CHOICE (log 12): R91 leaves the cell contents after
device reset undefined, and says that no reader can reach them. -/
def unwrittenByte : Byte := 0#8

end Sys2Proof.Config
end

