-- ==== Sys2Proof/Syntax.lean ====
section
/-! DEFINITION. The commands and events of the part: one constructor of `Instr` for each row of
spec/opcode_table.json, and the small types their operands need. Argument words are raw words: every value is admitted,
and the owning rule refuses what it refuses. -/

namespace Sys2Proof

/-- The eight locations of the window (R166). -/
inductive Loc
  | pstat | cmd | arg | rpl | pay | amask | pcount | ident
  deriving DecidableEq, Repr

/-- How a port is reached (R165, R177). -/
inductive PortMode
  | parallel | serial
  deriving DecidableEq, Repr

/-- The 27 commands of the command table (R173). -/
inductive CommandKind
  | join | leave | renew | status | evict
  | claim | release | upgrade | downgrade | cancelWait | repair | query | writeValue
  | spaceWait | spaceCancel | beginMessage | commit | abandon | openMessage | accept | refuse | unwind
  | nextNotice
  | setParam | readParam | deviceStatus | clearCounts
  deriving DecidableEq, Repr

/-- The moments of TICK (R146): periods of CLKIN pass at the time base, which produces ticks and delivers them, and each
of the three blocks takes a delivered tick as one event of its own. -/
inductive TickPart
  | clkin (periods : Nat)
  | presenceUnit
  | directory
  | store
  deriving DecidableEq, Repr

/-- The two moments of PAY_WRITE: the host writes PAY and the port passes the word on (R174), and the store takes the
word (R110, R111). -/
inductive PayWritePart
  | access (w : Word)
  | taken
  deriving DecidableEq, Repr

/-- What HEADER_BYTE stands for (R179): the eighth bit of the header byte is sampled; or, because the table has no row for
it, a data word of a read transaction at CMD, ARG, AMASK or IDENT is read, at the falling edge that drives its first bit
(log 23). -/
inductive HeaderPart
  | byte (header : Byte)
  | quietWord
  deriving DecidableEq, Repr

/-- The directory's part of a departure (R64): taken as one whole, or taken off the command path first and then done
lease by lease, each lease one step, in any order. -/
inductive DeparturePart
  | whole
  | start
  | atLease (l : LeaseId)
  deriving DecidableEq, Repr

/-- The commands and events of the part, one constructor for each row of spec/opcode_table.json. The first operand `h`
is the host whose command, port, record or wait it is. -/
inductive Instr
  /-- JOIN (R7): the presence unit takes h's JOIN. -/
  | join (h : HostId)
  /-- LEAVE (R10): the presence unit takes h's LEAVE. -/
  | leave (h : HostId)
  /-- RENEW (R8): the presence unit takes h's RENEW. -/
  | renew (h : HostId)
  /-- STATUS (R9): the presence unit takes h's STATUS. -/
  | status (h : HostId)
  /-- EVICT (R11): the presence unit takes h's EVICT of a target. -/
  | evict (h : HostId) (target : Word)
  /-- UNKNOWN_COMMAND_CODE (R4): the presence unit takes a command word outside the command table. -/
  | unknownCommandCode (h : HostId) (code : Word)
  /-- CLAIM (R29, R30): the directory takes h's CLAIM. -/
  | claim (h : HostId) (lease mode wait : Word)
  /-- RELEASE (R34, R35): the directory takes h's RELEASE. -/
  | release (h : HostId) (lease : Word)
  /-- UPGRADE (R49): the directory takes h's UPGRADE. -/
  | upgrade (h : HostId) (lease wait : Word)
  /-- DOWNGRADE (R38): the directory takes h's DOWNGRADE. -/
  | downgrade (h : HostId) (lease : Word)
  /-- CANCEL_WAIT (R47): the directory takes h's CANCEL_WAIT. -/
  | cancelWait (h : HostId)
  /-- REPAIR (R76): the directory takes h's REPAIR. -/
  | repair (h : HostId) (lease : Word)
  /-- QUERY (R40): the directory takes h's QUERY. -/
  | query (h : HostId) (lease : Word)
  /-- WRITE_VALUE (R39): the directory takes h's WRITE_VALUE. -/
  | writeValue (h : HostId) (lease hi lo : Word)
  /-- SPACE_WAIT (R93): the store takes h's SPACE_WAIT. -/
  | spaceWait (h : HostId) (cells wait : Word)
  /-- SPACE_CANCEL (R98): the store takes h's SPACE_CANCEL. -/
  | spaceCancel (h : HostId)
  /-- BEGIN (R104 to R107): the store takes h's BEGIN. -/
  | beginMessage (h : HostId) (dest length cls tag fenceLease fenceGen carried : Word)
  /-- COMMIT (R112 to R114): the store takes h's COMMIT. -/
  | commit (h : HostId)
  /-- ABANDON (R116): the store takes h's ABANDON. -/
  | abandon (h : HostId)
  /-- UNWIND (R117, R125): the store takes h's UNWIND. -/
  | unwind (h : HostId)
  /-- OPEN (R119): the store takes h's OPEN. -/
  | openMessage (h : HostId)
  /-- ACCEPT (R123): the store takes h's ACCEPT. -/
  | accept (h : HostId)
  /-- REFUSE (R124): the store takes h's REFUSE. -/
  | refuse (h : HostId)
  /-- NEXT_NOTICE (R139): the notice unit takes h's NEXT_NOTICE. -/
  | nextNotice (h : HostId)
  /-- SET_PARAM (R149): the settings block takes h's SET_PARAM. -/
  | setParam (h : HostId) (param value : Word)
  /-- READ_PARAM (R151): the settings block takes h's READ_PARAM. -/
  | readParam (h : HostId) (param : Word)
  /-- DEVICE_STATUS (R152): the settings block takes h's DEVICE_STATUS. -/
  | deviceStatus (h : HostId)
  /-- CLEAR_COUNTS (R154): the settings block takes h's CLEAR_COUNTS. -/
  | clearCounts (h : HostId)
  /-- REPLY_ARRIVAL (R171): the k-th reply in flight to port h arrives there (k counts from 0). -/
  | replyArrival (h : HostId) (k : Nat)
  /-- ARG_WRITE (R169): host h writes ARG. -/
  | argWrite (h : HostId) (w : Word)
  /-- RPL_READ (R171): host h reads RPL. -/
  | rplRead (h : HostId)
  /-- PAY_WRITE (R110, R111, R174): host h writes PAY, or the store takes h's oldest PAY word. -/
  | payWrite (h : HostId) (part : PayWritePart)
  /-- PAY_READ (R121, R174): host h reads PAY. -/
  | payRead (h : HostId)
  /-- PSTAT_READ (R168): host h reads PSTAT. -/
  | pstatRead (h : HostId)
  /-- PCOUNT_READ (R168): host h reads PCOUNT. -/
  | pcountRead (h : HostId)
  /-- AMASK_WRITE (R143): host h writes AMASK. -/
  | amaskWrite (h : HostId) (w : Word)
  /-- WINDOW_WRITE_IGNORED (R166): host h writes PSTAT, RPL, PCOUNT or IDENT. -/
  | windowWriteIgnored (h : HostId) (loc : Loc) (w : Word)
  /-- PRSTN_ASSERT (R18, R176): PRSTn of port h falls. -/
  | prstnAssert (h : HostId)
  /-- PRSTN_RELEASE (R18): PRSTn of port h rises. -/
  | prstnRelease (h : HostId)
  /-- RESETN_ASSERT (R19): RESETn falls. -/
  | resetnAssert
  /-- RESETN_RELEASE (R177): RESETn rises, with the level of each port's MODE pin (true = high). -/
  | resetnRelease (modePins : PerHost Bool)
  /-- TICK (R146). -/
  | tick (part : TickPart)
  /-- TERM_EXPIRY (R14): the presence unit takes the expiry of h's term. -/
  | termExpiry (h : HostId)
  /-- CLAIM_WAIT_EXPIRY (R46): the directory takes the expiry of h's claim wait. -/
  | claimWaitExpiry (h : HostId)
  /-- UPGRADE_WAIT_EXPIRY (R53): the directory takes the expiry of h's upgrade wait. -/
  | upgradeWaitExpiry (h : HostId)
  /-- SPACE_WAIT_EXPIRY (R96): the store takes the expiry of h's space wait. -/
  | spaceWaitExpiry (h : HostId)
  /-- RESERVATION_LAPSE (R97): the store takes the lapse of h's reservation. -/
  | reservationLapse (h : HostId)
  /-- DIRECTORY_JOIN (R6): the directory takes h's join. -/
  | directoryJoin (h : HostId)
  /-- STORE_JOIN (R6): the store takes h's join. -/
  | storeJoin (h : HostId)
  /-- NOTICE_UNIT_JOIN (R138): the notice unit takes h's join. -/
  | noticeUnitJoin (h : HostId)
  /-- DIRECTORY_DEPARTURE (R64): the directory takes h's departure, or does its part at one lease. -/
  | directoryDeparture (h : HostId) (part : DeparturePart)
  /-- STORE_DEPARTURE (R101): the store takes h's departure. -/
  | storeDeparture (h : HostId)
  /-- NOTICE_UNIT_DEPARTURE (R138): the notice unit takes h's departure. -/
  | noticeUnitDeparture (h : HostId)
  /-- PORT_DEPARTURE (R175): port h takes its host's departure. -/
  | portDeparture (h : HostId)
  /-- NOTICE_OFFER (R137): the k-th notice offered to h reaches its ring (k counts from 0). -/
  | noticeOffer (h : HostId) (k : Nat)
  /-- STORE_SETTING_CHANGE (R148): the store takes the oldest change handed to it. -/
  | storeSettingChange
  /-- CORRECTED_COUNT (R156): the settings block counts one corrected error. -/
  | correctedCount
  /-- UNCORRECTED_COUNT (R157): the settings block counts one uncorrectable finding. -/
  | uncorrectedCount
  /-- CMD_WRITE (R170): host h writes CMD. -/
  | cmdWrite (h : HostId) (code : Word)
  /-- COMMAND_ADMISSION (R4): the presence unit takes h's command and refuses it or passes it on. -/
  | commandAdmission (h : HostId)
  /-- SERIAL_TRANSACTION_BEGIN (R179): SSELn of port h falls. -/
  | serialTransactionBegin (h : HostId)
  /-- HEADER_BYTE (R179): the eighth bit of the header has been sampled, or a word without a row of its own is read. -/
  | headerByte (h : HostId) (part : HeaderPart)
  /-- SERIAL_TRANSACTION_END (R179): SSELn of port h rises, with the bits of a word cut short. -/
  | serialTransactionEnd (h : HostId) (cutBits : List Bool)
  deriving DecidableEq, Repr

end Sys2Proof
end

