-- ==== Sys2Proof/Decode.lean ====
section
/-! DEFINITION. The decoders of the part: the command word (R173), the serial header byte (R179), and the host's
question about the bits of a table row. spec/opcode_table.json gives none of its rows any bits. -/

namespace Sys2Proof

/-- The code of a command (R173). -/
def CommandKind.code : CommandKind → Word
  | .join => 0x01#16 | .leave => 0x02#16 | .renew => 0x03#16 | .status => 0x04#16 | .evict => 0x05#16
  | .claim => 0x10#16 | .release => 0x11#16 | .upgrade => 0x12#16 | .downgrade => 0x13#16
  | .cancelWait => 0x14#16 | .repair => 0x15#16 | .query => 0x16#16 | .writeValue => 0x17#16
  | .spaceWait => 0x20#16 | .spaceCancel => 0x21#16 | .beginMessage => 0x22#16 | .commit => 0x23#16
  | .abandon => 0x24#16 | .openMessage => 0x25#16 | .accept => 0x26#16 | .refuse => 0x27#16 | .unwind => 0x28#16
  | .nextNotice => 0x30#16
  | .setParam => 0x40#16 | .readParam => 0x41#16 | .deviceStatus => 0x42#16 | .clearCounts => 0x43#16

/-- The command that a word written to CMD names; every other value of the whole 16-bit word is an unknown code
(R170, R173). -/
def decodeCommand (w : Word) : Option CommandKind :=
  match w.toNat with
  | 0x01 => some .join | 0x02 => some .leave | 0x03 => some .renew | 0x04 => some .status | 0x05 => some .evict
  | 0x10 => some .claim | 0x11 => some .release | 0x12 => some .upgrade | 0x13 => some .downgrade
  | 0x14 => some .cancelWait | 0x15 => some .repair | 0x16 => some .query | 0x17 => some .writeValue
  | 0x20 => some .spaceWait | 0x21 => some .spaceCancel | 0x22 => some .beginMessage | 0x23 => some .commit
  | 0x24 => some .abandon | 0x25 => some .openMessage | 0x26 => some .accept | 0x27 => some .refuse
  | 0x28 => some .unwind
  | 0x30 => some .nextNotice
  | 0x40 => some .setParam | 0x41 => some .readParam | 0x42 => some .deviceStatus | 0x43 => some .clearCounts
  | _ => none

/-- The number of a location (R166). -/
def Loc.number : Loc → Nat
  | .pstat => 0 | .cmd => 1 | .arg => 2 | .rpl => 3 | .pay => 4 | .amask => 5 | .pcount => 6 | .ident => 7

/-- The location that three bits name (R166). -/
def decodeLoc (b : BitVec 3) : Loc :=
  match b.toNat with
  | 0 => .pstat | 1 => .cmd | 2 => .arg | 3 => .rpl | 4 => .pay | 5 => .amask | 6 => .pcount | _ => .ident

/-- What a header byte selects: bit 7 the direction (true = read), bits 2–0 the location; none when bits 6–3 are not
all 0, and the port then ignores the rest of the transaction (R179). -/
def decodeHeader (b : Byte) : Option (Bool × Loc) :=
  if b.extractLsb' 3 4 = 0#4 then some (b.getLsbD 7, decodeLoc (b.extractLsb' 0 3)) else none

/-- The header byte of a direction and a location (R179). -/
def encodeHeader (read : Bool) (loc : Loc) : Byte :=
  BitVec.ofNat 8 ((if read then 128 else 0) + loc.number)

/-- The command that the bits of a table row spell: none, since no row of spec/opcode_table.json has bits (log 3). -/
def decodeTableWord (_nbits _w : Nat) : Option Instr := none

end Sys2Proof
end

