-- ==== Sys2Proof/Machine/State.lean ====
section
/-! DEFINITION. The state of the part, block by block, as plain data, and its value after device reset. -/

namespace Sys2Proof.Machine

open Sys2Proof

/-! ## Storage with a check code (R155) -/

/-- What the next read of a check-coded object finds: its code matches, one bit is in error, or two bits are. -/
inductive Check
  | sound | correctable | uncorrectable
  deriving DecidableEq, Repr

/-- An object kept with a check code (R155). `val` is what a reader gets: the corrected contents while at most one bit
is in error, the contents as they are stored while two are. -/
structure Coded (α : Type) where
  val : α
  chk : Check
  deriving DecidableEq, Repr

/-! ## The presence unit (chapter 1) -/

/-- Presence states (R2). -/
inductive PresenceState
  | offline | unjoined | joined | fenced
  deriving DecidableEq, Repr

/-- Why a host is FENCED (R2). -/
inductive FenceCause
  | lapsed | evicted
  deriving DecidableEq, Repr

/-- Causes of a departure (R2, R15). -/
inductive DepartureCause
  | left | lapsed | evicted | portReset
  deriving DecidableEq, Repr

/-- One presence record (R2). `term` is none while the term is stopped; it is 0 while the expiry of the term is due and
not yet taken (log 9). -/
structure PresenceRecord where
  state : PresenceState
  session : Nat
  term : Option Nat
  fence : Option FenceCause
  deriving DecidableEq, Repr

/-! ## Commands, replies and the command path (R6, R170, R171) -/

/-- A command on its way: its host, a number that tells it from the port's other commands (log 24), the whole command
word, and the argument frame as it was written (R170). -/
structure Command where
  host : HostId
  id : Nat
  code : Word
  args : List Word
  deriving DecidableEq, Repr

/-- The presence unit: its records, the ticks delivered to it and not yet taken (R146), and of each host an EVICT that it
admitted and whose charter check is still to be asked (R80, log 33). -/
structure PresenceUnit where
  records : PerHost PresenceRecord
  ticks : Nat
  evicting : PerHost (Option Command)
  deriving DecidableEq, Repr

/-- A reply on its way to a port: the command it answers, its words from the status word on, and whether it answers a
LEAVE, whose reply stays behind the departure at the port (R175). -/
structure Reply where
  id : Nat
  words : List Word
  afterLeave : Bool
  deriving DecidableEq, Repr

/-- An item on the command path to a block (R6). -/
inductive PathItem
  | command (c : Command)
  | join (h : HostId) (session : Nat)
  | departure (h : HostId) (cause : DepartureCause) (session : Nat)
  deriving DecidableEq, Repr

/-! ## Host ports (chapter 11) -/

/-- The alert mask: the enables of conditions N, M and L (R143). -/
structure AlertMask where
  n : Bool
  m : Bool
  l : Bool
  deriving DecidableEq, Repr

/-- Where a serial transaction stands (R179): none; the header byte awaited; the rest ignored; data words in a
direction (true = read) at a location. -/
inductive SerialPhase
  | idle
  | header
  | ignoring
  | data (read : Bool) (loc : Loc)
  deriving DecidableEq, Repr

/-- One host port (R165). BUSY is `inFlight.isSome`. -/
structure Port where
  /-- argument frame, in the order written (R169) -/
  args : List Word
  /-- reply frame (R171) -/
  reply : Vector Word 8
  /-- reply position, 0–8 (R171) -/
  replyPos : Nat
  /-- the command in flight whose reply the port will place; present exactly while BUSY is set (R165) -/
  inFlight : Option Nat
  /-- REPLY-READY (R165) -/
  replyReady : Bool
  /-- overrun (R172) -/
  overrun : Bool
  /-- alert mask (R143) -/
  mask : AlertMask
  /-- PARALLEL or SERIAL (R177) -/
  mode : PortMode
  /-- orphaned commands (R176) -/
  orphaned : List Nat
  /-- the number the next accepted command takes (MODEL's own, log 24) -/
  nextId : Nat
  /-- the command written to CMD that the presence unit has not yet taken (R170, R176) -/
  unadmitted : Option Command
  /-- PAY words written behind that command, oldest first (R111) -/
  parked : List Word
  /-- replies on their way to the port -/
  replies : List Reply
  /-- departures delivered to the port and not yet taken, oldest first (R15, R175) -/
  departures : List DepartureCause
  /-- serial transaction (R179) -/
  serial : SerialPhase
  /-- SDO is driven by data words of a read transaction (R179) -/
  sdoDriven : Bool
  /-- the word that the latest read access returned (MODEL's own, log 23) -/
  dataOut : Word
  /-- PRSTn of the port is low (R18) -/
  prstn : Bool
  deriving DecidableEq, Repr

/-! ## The lease directory (chapters 2 to 4) -/

/-- Lease states (R21). -/
inductive LeaseState
  | free | shared | exclusive | stranded
  deriving DecidableEq, Repr

/-- Modes of a claim (R21). -/
inductive LeaseMode
  | shared | exclusive
  deriving DecidableEq, Repr

/-- Why a lease is stranded (R21). -/
inductive StrandedCause
  | departed | handoff | integrity
  deriving DecidableEq, Repr

/-- The transit record: the carrying descriptor and the recipient (R20). -/
structure Transit where
  desc : DescId
  recipient : HostId
  deriving DecidableEq, Repr

/-- One lease entry (R20). -/
structure LeaseEntry where
  state : LeaseState
  owner : Option HostId
  holders : HostSet
  generation : Word
  value : BitVec 32
  waiters : List (HostId × LeaseMode)
  upgrade : Option HostId
  transit : Option Transit
  ownerPresent : Bool
  cause : Option StrandedCause
  deriving DecidableEq, Repr

/-- What a host waits to become (R42). -/
inductive WaitKind
  | claimShared | claimExclusive | upgrade
  deriving DecidableEq, Repr

/-- One wait record (R42). `ticks` is none for a wait without deadline; it is 0 while the expiry is due and not yet
taken (log 9). -/
structure WaitRecord where
  lease : LeaseId
  kind : WaitKind
  ticks : Option Nat
  deriving DecidableEq, Repr

/-- A departure the directory has taken and not finished: the ended session, and the leases still to be done (R64). -/
structure Departing where
  session : Nat
  due : List LeaseId
  deriving DecidableEq, Repr

/-- The lease directory (R20, R42). `joined` is its own count of JOINED hosts with the session announced (R6). -/
structure Directory where
  entries : Vector (Coded LeaseEntry) 64
  waits : PerHost (Option WaitRecord)
  joined : PerHost (Option Nat)
  departing : PerHost (Option Departing)
  path : List PathItem
  ticks : Nat
  deriving DecidableEq, Repr

/-! ## The message store (chapters 5 to 7) -/

/-- Descriptor states (R81). -/
inductive DescState
  | free | reserved | assembling | queued | opened
  deriving DecidableEq, Repr

/-- Classes of a message (R81). -/
inductive MsgClass
  | normal | urgent
  deriving DecidableEq, Repr

/-- The fields that BEGIN sets (R81). -/
structure Message where
  dest : HostId
  cls : MsgClass
  tag : Word
  length : Nat
  written : Nat
  fence : Option (LeaseId × Word)
  carried : Option LeaseId
  deriving DecidableEq, Repr

/-- One descriptor (R81). `msg` is absent until BEGIN. -/
structure Descriptor where
  state : DescState
  source : HostId
  session : Nat
  cellCount : Nat
  damaged : Bool
  msg : Option Message
  deriving DecidableEq, Repr

/-- One cell map entry (R84). -/
inductive MapEntry
  | free
  | owned (d : DescId) (pos : Nat)
  | retired
  deriving DecidableEq, Repr

/-- One space record (R92). `ticks` and `hold` are 0 while the expiry or the lapse is due and not yet taken (log 9). -/
inductive SpaceRecord
  | empty
  | waiting (cells : Nat) (ticks : Option Nat)
  | reserved (d : DescId) (hold : Nat)
  deriving DecidableEq, Repr

/-- One stream record (R83). -/
structure StreamRecord where
  assembling : Option DescId
  openDesc : Option DescId
  readPos : Nat
  deriving DecidableEq, Repr

/-- One inbound queue: its URGENT part stands before its NORMAL part, each in arrival order (R89). -/
structure InboundQueue where
  urgent : List DescId
  normal : List DescId
  deriving DecidableEq, Repr

/-- The six settings (R147). -/
inductive Setting
  | tickDiv | presenceTerm | descQuota | cellQuota | inboundLimit | spaceHold
  deriving DecidableEq, Repr

/-- A setting change on its way to the store, with the SET_PARAM it answers (R148). -/
structure SettingChange where
  setting : Setting
  old : Nat
  value : Nat
  host : HostId
  id : Nat
  deriving DecidableEq, Repr

/-- An item on its way to the store: from the presence unit, or a PAY word from a port (R6, R111). -/
inductive StoreItem
  | path (i : PathItem)
  | pay (h : HostId) (w : Word)
  deriving DecidableEq, Repr

/-- The message store. `payload` holds the bytes of the cells, cell c from address 16 c on (R84). -/
structure Store where
  descs : Vector (Coded Descriptor) 48
  map : Vector (Coded MapEntry) 128
  payload : List Host.Cell
  cellChk : Vector Check 128
  inbound : PerHost InboundQueue
  space : PerHost SpaceRecord
  spaceList : List HostId
  streams : PerHost StreamRecord
  joined : PerHost (Option Nat)
  descQuota : Nat
  cellQuota : Nat
  inboundLimit : Nat
  changes : List SettingChange
  path : List StoreItem
  ticks : Nat
  deriving DecidableEq, Repr

/-! ## The notice unit (chapter 8) -/

/-- Kinds of object a FAULT notice names (R135). -/
inductive ObjectKind
  | directory | descriptor | cellMap | cell
  deriving DecidableEq, Repr

/-- Reasons of a bounce (R126). -/
inductive BounceReason
  | refused | destDeparted | lost
  deriving DecidableEq, Repr

/-- A notice: its kind and its fields (R135). -/
inductive Notice
  | granted (lease : LeaseId) (mode : LeaseMode) (generation : Word)
  | waitExpired (lease : LeaseId) (kind : WaitKind)
  | stranded (lease : LeaseId) (formerOwner : Option HostId) (cause : StrandedCause)
  | handed (lease : LeaseId) (recipient : HostId) (generation : Word)
  | bounced (tag : Word) (dest : HostId) (reason : BounceReason) (lease : Option LeaseId)
  | spaceReady (cells : Nat)
  | spaceExpired (cells : Nat)
  | spaceLapsed (cells : Nat)
  | peerJoined (host : HostId) (session : Nat)
  | peerDeparted (host : HostId) (cause : DepartureCause)
  | fault (kind : ObjectKind) (index : Nat)
  deriving DecidableEq, Repr

/-- A notice on its way to a ring, with the session of the host that the offering block offered it to (R138, log 6). -/
structure Offer where
  notice : Notice
  session : Option Nat
  deriving DecidableEq, Repr

/-- The notice unit (R136). -/
structure NoticeUnit where
  rings : PerHost (List Notice)
  lost : PerHost Nat
  joined : PerHost (Option Nat)
  offers : PerHost (List Offer)
  path : List PathItem
  deriving DecidableEq, Repr

/-! ## Settings and time base (chapter 9) -/

/-- The settings block: the six settings as recorded, the two error counts, the findings raised and not yet counted
(R156, R157), and the commands on their way to it. -/
structure SettingsBlock where
  tickDiv : Nat
  presenceTerm : Nat
  descQuota : Nat
  cellQuota : Nat
  inboundLimit : Nat
  spaceHold : Nat
  corrected : Nat
  uncorrected : Nat
  correctedDue : Nat
  uncorrectedDue : Nat
  path : List PathItem
  deriving DecidableEq, Repr

/-- The time base: the periods of CLKIN elapsed in the current tick and the divider in force for it (R146). -/
structure TimeBase where
  count : Nat
  divider : Nat
  deriving DecidableEq, Repr

/-! ## The part -/

/-- The whole state of the part. -/
structure State where
  presence : PresenceUnit
  ports : PerHost Port
  dir : Directory
  store : Store
  notice : NoticeUnit
  settings : SettingsBlock
  timeBase : TimeBase
  /-- RESETn is low (R19) -/
  resetn : Bool
  /-- the commands that are waiting, first in first out (MODEL's own, log 2) -/
  pending : List Instr
  deriving DecidableEq, Repr

/-- Why the machine would stop with a fault. No row stops: chapter 10 gives every damaged object an effect. The one
constructor stands so that the type is not empty. Safe: a stop allows nothing more. -/
inductive Fault
  /-- Raised by nobody. -/
  | noFault
  deriving DecidableEq, Repr

/-- Why the machine would refuse a command. -/
inductive Refusal
  /-- The command has no meaning yet, by the mnemonic of its row. Raised by no arm: every row has its meaning. Safe: a
  stop allows nothing more. -/
  | notModelled (mnemonic : String)
  deriving DecidableEq, Repr

/-! ## Device reset -/

/-- A presence record after device reset (R2). -/
def PresenceRecord.reset : PresenceRecord := ⟨.offline, 0, none, none⟩

/-- A lease entry after device reset (R25). -/
def LeaseEntry.reset : LeaseEntry :=
  ⟨.free, none, 0#4, 0#16, 0#32, [], none, none, false, none⟩

/-- A FREE descriptor with every field cleared (R81, R91). -/
def Descriptor.cleared : Descriptor := ⟨.free, 0, 0, 0, false, none⟩

/-- A port after device reset (R165). The mode before the first latch, the PRSTn pin and the serial phase are choices
(log 4, log 22). -/
def Port.reset : Port where
  args := []
  reply := Vector.replicate 8 0#16
  replyPos := 0
  inFlight := none
  replyReady := false
  overrun := false
  mask := ⟨false, false, false⟩
  mode := .parallel
  orphaned := []
  nextId := 0
  unadmitted := none
  parked := []
  replies := []
  departures := []
  serial := .idle
  sdoDriven := false
  dataOut := 0#16
  prstn := false

/-- The directory after device reset (R25). -/
def Directory.reset : Directory where
  entries := Vector.replicate 64 ⟨LeaseEntry.reset, .sound⟩
  waits := Vector.replicate 4 none
  joined := Vector.replicate 4 none
  departing := Vector.replicate 4 none
  path := []
  ticks := 0

/-- The store after device reset (R91, R147). -/
def Store.reset : Store where
  descs := Vector.replicate 48 ⟨Descriptor.cleared, .sound⟩
  map := Vector.replicate 128 ⟨.free, .sound⟩
  payload := []
  cellChk := Vector.replicate 128 .sound
  inbound := Vector.replicate 4 ⟨[], []⟩
  space := Vector.replicate 4 .empty
  spaceList := []
  streams := Vector.replicate 4 ⟨none, none, 0⟩
  joined := Vector.replicate 4 none
  descQuota := 16
  cellQuota := 48
  inboundLimit := 24
  changes := []
  path := []
  ticks := 0

/-- The notice unit after device reset (R136). -/
def NoticeUnit.reset : NoticeUnit where
  rings := Vector.replicate 4 []
  lost := Vector.replicate 4 0
  joined := Vector.replicate 4 none
  offers := Vector.replicate 4 []
  path := []

/-- The settings block after device reset (R147, R153). -/
def SettingsBlock.reset : SettingsBlock where
  tickDiv := 25000
  presenceTerm := 2000
  descQuota := 16
  cellQuota := 48
  inboundLimit := 24
  spaceHold := 500
  corrected := 0
  uncorrected := 0
  correctedDue := 0
  uncorrectedDue := 0
  path := []

/-- The part after device reset, RESETn still held (R19, log 4): every presence record is OFFLINE. -/
def State.reset : State where
  presence := ⟨Vector.replicate 4 PresenceRecord.reset, 0, Vector.replicate 4 none⟩
  ports := Vector.replicate 4 Port.reset
  dir := Directory.reset
  store := Store.reset
  notice := NoticeUnit.reset
  settings := SettingsBlock.reset
  timeBase := ⟨0, 25000⟩
  resetn := true
  pending := []

end Sys2Proof.Machine
end

