-- ==== Sys2Proof/Machine/Operands.lean ====
section
/-! DEFINITION. Argument words into operands, and the codes that states, causes, statuses and notices have in words. -/

namespace Sys2Proof.Machine

open Sys2Proof

/-! ## Argument words -/

/-- A lease argument from 0 to 63 names a lease; any other value names none (R27). -/
def parseLease (w : Word) : Option LeaseId :=
  if h : w.toNat < 64 then some ⟨w.toNat, h⟩ else none

/-- A mode argument: 1 and 2 are taken (R27). -/
def parseMode (w : Word) : Option LeaseMode :=
  match w.toNat with
  | 1 => some .shared
  | 2 => some .exclusive
  | _ => none

/-- A host argument from 0 to 3 (R11, R104). -/
def parseHost (w : Word) : Option HostId :=
  if h : w.toNat < 4 then some ⟨w.toNat, h⟩ else none

/-- A class argument: 0 and 1 are taken (R104). -/
def parseClass (w : Word) : Option MsgClass :=
  match w.toNat with
  | 0 => some .normal
  | 1 => some .urgent
  | _ => none

/-- An optional lease argument: a lease, FFFFh for none, and any other value is refused (R104). The outer Option is the
refusal. -/
def parseOptLease (w : Word) : Option (Option LeaseId) :=
  if w = noneWord then some none
  else (parseLease w).map some

/-- The deadline that a wait argument above 0 loads: 1–65534 ticks, none for 65535 (R27, R44, R93). -/
def parseDeadline (w : Word) : Option Nat :=
  if w.toNat = Config.noDeadline then none else some w.toNat

/-- The word that reports a deadline: FFFFh for a wait without one (R44, R51, R94). -/
def deadlineWord : Option Nat → Word
  | none => noneWord
  | some n => word n

/-- The word of an optional host (00_scope, "Optional values"). -/
def optHostWord : Option HostId → Word
  | none => noneWord
  | some h => word h.val

/-- The word of an optional lease (00_scope, "Optional values"). -/
def optLeaseWord : Option LeaseId → Word
  | none => noneWord
  | some l => word l.val

/-- Two words as the 32-bit value of a lease, the high word first (R23). -/
def joinWords (hi lo : Word) : BitVec 32 := hi ++ lo

/-- The high word of a lease's value (R23). -/
def highWord (v : BitVec 32) : Word := v.extractLsb' 16 16

/-- The low word of a lease's value (R23). -/
def lowWord (v : BitVec 32) : Word := v.extractLsb' 0 16

/-! ## Settings (R147) -/

/-- The setting that an id names (R147). -/
def parseSetting (w : Word) : Option Setting :=
  match w.toNat with
  | 0 => some .tickDiv
  | 1 => some .presenceTerm
  | 2 => some .descQuota
  | 3 => some .cellQuota
  | 4 => some .inboundLimit
  | 5 => some .spaceHold
  | _ => none

/-- The id of a setting (R147). -/
def Setting.number : Setting → Nat
  | .tickDiv => 0
  | .presenceTerm => 1
  | .descQuota => 2
  | .cellQuota => 3
  | .inboundLimit => 4
  | .spaceHold => 5

/-- The lowest value of a setting's range (R147). -/
def Setting.low : Setting → Nat
  | .tickDiv => 100
  | .presenceTerm => 10
  | .descQuota | .cellQuota | .inboundLimit | .spaceHold => 1

/-- The highest value of a setting's range (R147). -/
def Setting.high : Setting → Nat
  | .tickDiv => 65535
  | .presenceTerm | .spaceHold => 60000
  | .descQuota | .inboundLimit => 48
  | .cellQuota => 128

/-- The default of a setting (R147). -/
def Setting.default : Setting → Nat
  | .tickDiv => 25000
  | .presenceTerm => 2000
  | .descQuota => 16
  | .cellQuota => 48
  | .inboundLimit => 24
  | .spaceHold => 500

/-- Settings 2, 3 and 4 act at the message store, which takes each change as an event of its own (R148). -/
def Setting.actsAtStore : Setting → Bool
  | .descQuota | .cellQuota | .inboundLimit => true
  | .tickDiv | .presenceTerm | .spaceHold => false

/-- DESC_QUOTA and CELL_QUOTA, whose change runs a space scan (R95, R148). -/
def Setting.isQuota : Setting → Bool
  | .descQuota | .cellQuota => true
  | .tickDiv | .presenceTerm | .inboundLimit | .spaceHold => false

/-! ## Codes -/

/-- The status codes that open every reply (R173). -/
inductive Status
  | ok | queued | none
  | busy | stranded | held | waiting | notHolder | inTransit | conflict | notStranded
  | noPeer | noSpace | quota | queueFull | short | stale
  | state | fenced | notJoined | already
  | charter | badArg
  | damaged
  deriving DecidableEq, Repr

/-- The code of a status (R173). -/
def Status.code : Status → Word
  | .ok => 0x00#16 | .queued => 0x01#16 | .none => 0x02#16
  | .busy => 0x10#16 | .stranded => 0x11#16 | .held => 0x12#16 | .waiting => 0x13#16 | .notHolder => 0x14#16
  | .inTransit => 0x15#16 | .conflict => 0x16#16 | .notStranded => 0x17#16
  | .noPeer => 0x20#16 | .noSpace => 0x21#16 | .quota => 0x22#16 | .queueFull => 0x23#16 | .short => 0x24#16
  | .stale => 0x25#16
  | .state => 0x30#16 | .fenced => 0x31#16 | .notJoined => 0x32#16 | .already => 0x33#16
  | .charter => 0x40#16 | .badArg => 0x41#16
  | .damaged => 0x50#16

/-- The code of a presence state (R2). -/
def PresenceState.code : PresenceState → Nat
  | .offline => 0
  | .unjoined => 1
  | .joined => 2
  | .fenced => 3

/-- The code of a departure cause (R2). -/
def DepartureCause.code : DepartureCause → Nat
  | .left => 0
  | .lapsed => 1
  | .evicted => 2
  | .portReset => 3

/-- The word of a fence cause: FFFFh when absent (R2). -/
def fenceWord : Option FenceCause → Word
  | none => noneWord
  | some .lapsed => word 1
  | some .evicted => word 2

/-- The code of a lease state (R21). -/
def LeaseState.code : LeaseState → Nat
  | .free => 0
  | .shared => 1
  | .exclusive => 2
  | .stranded => 3

/-- The code of a mode (R21). -/
def LeaseMode.code : LeaseMode → Nat
  | .shared => 1
  | .exclusive => 2

/-- The code of a stranded cause (R21). -/
def StrandedCause.code : StrandedCause → Nat
  | .departed => 0
  | .handoff => 1
  | .integrity => 2

/-- The code of an optional stranded cause: 3 when absent (R21). -/
def causeCode : Option StrandedCause → Nat
  | none => 3
  | some c => c.code

/-- The code of a wait kind (R42). -/
def WaitKind.code : WaitKind → Nat
  | .claimShared => 1
  | .claimExclusive => 2
  | .upgrade => 3

/-- The wait kind of a queued claim (R44). -/
def LeaseMode.waitKind : LeaseMode → WaitKind
  | .shared => .claimShared
  | .exclusive => .claimExclusive

/-- The code of a class (R81). -/
def MsgClass.code : MsgClass → Nat
  | .normal => 0
  | .urgent => 1

/-- The code of a bounce reason (R126). -/
def BounceReason.code : BounceReason → Nat
  | .refused => 0
  | .destDeparted => 1
  | .lost => 2

/-- The code of an object kind (R135). -/
def ObjectKind.code : ObjectKind → Nat
  | .directory => 0
  | .descriptor => 1
  | .cellMap => 2
  | .cell => 3

/-! ## Notices in words (R135, R139) -/

/-- The code of a notice's kind (R135). -/
def Notice.kindCode : Notice → Nat
  | .granted .. => 1
  | .waitExpired .. => 2
  | .stranded .. => 3
  | .handed .. => 4
  | .bounced .. => 5
  | .spaceReady .. => 6
  | .spaceExpired .. => 7
  | .spaceLapsed .. => 8
  | .peerJoined .. => 9
  | .peerDeparted .. => 10
  | .fault .. => 11

/-- The fields of a notice in order; an optional field that is absent is none (R135). -/
def Notice.fields : Notice → List (Option Word)
  | .granted l m g => [some (word l.val), some (word m.code), some g]
  | .waitExpired l k => [some (word l.val), some (word k.code)]
  | .stranded l o c => [some (word l.val), o.map (fun h => word h.val), some (word c.code)]
  | .handed l r g => [some (word l.val), some (word r.val), some g]
  | .bounced t d r l => [some t, some (word d.val), some (word r.code), l.map (fun x => word x.val)]
  | .spaceReady n => [some (word n)]
  | .spaceExpired n => [some (word n)]
  | .spaceLapsed n => [some (word n)]
  | .peerJoined h n => [some (word h.val), some (word n)]
  | .peerDeparted h c => [some (word h.val), some (word c.code)]
  | .fault k i => [some (word k.code), some (word i)]

/-- The presence word: bit n − 1 is 1 when field n is present (R139). -/
def Notice.presenceWord (n : Notice) : Word :=
  word ((n.fields.zipIdx.map fun x => if x.1.isSome then 2 ^ x.2 else 0).sum)

/-- Reply words 3 to 6: an absent field of the kind reads FFFFh, a position beyond its last field reads 0 (R139). -/
def Notice.fieldWords (n : Notice) : List Word :=
  (List.range 4).map fun i =>
    match n.fields[i]? with
    | none => 0#16
    | some none => noneWord
    | some (some w) => w

end Sys2Proof.Machine
end

