-- ==== Sys2Proof/Machine/Ops.lean ====
section
/-! DEFINITION. The named operations that the meanings share: sets of hosts, the payload memory, the fields of the
blocks, the command path, replies, offered notices, the findings of the check logic, and the presence unit's part of
a departure. -/

namespace Sys2Proof.Machine

open Sys2Proof

/-! ## Sets of hosts -/

/-- The host is in the set. -/
def HostSet.has (x : HostSet) (h : HostId) : Bool := x.getLsbD h.val

/-- The set of one host. -/
def HostSet.single (h : HostId) : HostSet := 1#4 <<< h.val

/-- The set with one host added. -/
def HostSet.insert (x : HostSet) (h : HostId) : HostSet := x ||| HostSet.single h

/-- The set with one host removed. -/
def HostSet.erase (x : HostSet) (h : HostId) : HostSet := x &&& ~~~(HostSet.single h)

/-- The number of hosts in the set. -/
def HostSet.size (x : HostSet) : Nat := allHosts.countP fun h => HostSet.has x h

/-! ## The payload memory (R84) -/

/-- One byte of payload memory. -/
def Memory.read : List Host.Cell → Nat → Byte
  | [], _ => Config.unwrittenByte
  | (b, x) :: rest, a => if a = b then x else Memory.read rest a

/-- One byte written, in canonical form: addresses strictly rising, and no entry that an unlisted address reads as. -/
def Memory.write : List Host.Cell → Nat → Byte → List Host.Cell
  | [], a, y => if y = Config.unwrittenByte then [] else [(a, y)]
  | (b, x) :: rest, a, y =>
    if a < b then (if y = Config.unwrittenByte then (b, x) :: rest else (a, y) :: (b, x) :: rest)
    else if a = b then (if y = Config.unwrittenByte then rest else (a, y) :: rest)
    else (b, x) :: Memory.write rest a y

/-- Every listed address is at least `lo`, addresses rise, and no entry holds the byte of an unlisted address. -/
def Memory.wfFrom : Nat → List Host.Cell → Bool
  | _, [] => true
  | lo, (a, x) :: rest => decide (lo ≤ a) && (x != Config.unwrittenByte) && Memory.wfFrom (a + 1) rest

/-- The canonical form of payload memory. -/
def Memory.wf (m : List Host.Cell) : Bool := Memory.wfFrom 0 m

/-- Bytes written one after the other from an address on. -/
def Memory.writeBytes : List Host.Cell → Nat → List Byte → List Host.Cell
  | m, _, [] => m
  | m, a, y :: ys => Memory.writeBytes (Memory.write m a y) (a + 1) ys

/-- The address of a cell's byte. -/
def cellAddr (c : CellId) (offset : Nat) : Nat := Config.cellBytes * c.val + offset

/-! ## Fields of the blocks -/

/-- The port of a host. -/
def State.port (s : State) (h : HostId) : Port := s.ports.get h

/-- The state with a port replaced. -/
def State.setPort (s : State) (h : HostId) (p : Port) : State := { s with ports := upd s.ports h p }

/-- The presence record of a host (R2). -/
def State.record (s : State) (h : HostId) : PresenceRecord := s.presence.records.get h

/-- The state with a presence record replaced. -/
def State.setRecord (s : State) (h : HostId) (r : PresenceRecord) : State :=
  { s with presence := { s.presence with records := upd s.presence.records h r } }

/-- The state with a host's EVICT that waits for its charter check replaced (R80). -/
def State.setEvicting (s : State) (h : HostId) (c : Option Command) : State :=
  { s with presence := { s.presence with evicting := upd s.presence.evicting h c } }

/-- The contents of a lease entry. -/
def State.entry (s : State) (l : LeaseId) : LeaseEntry := (s.dir.entries.get l).val

/-- A lease entry written, with a code that matches (R155). -/
def State.putEntry (s : State) (l : LeaseId) (e : LeaseEntry) : State :=
  { s with dir := { s.dir with entries := upd s.dir.entries l ⟨e, .sound⟩ } }

/-- The wait record of a host (R42). -/
def State.wait (s : State) (h : HostId) : Option WaitRecord := s.dir.waits.get h

/-- The state with a wait record replaced. -/
def State.setWait (s : State) (h : HostId) (r : Option WaitRecord) : State :=
  { s with dir := { s.dir with waits := upd s.dir.waits h r } }

/-- The contents of a descriptor. -/
def State.desc (s : State) (d : DescId) : Descriptor := (s.store.descs.get d).val

/-- A descriptor written, with a code that matches (R155). -/
def State.putDesc (s : State) (d : DescId) (x : Descriptor) : State :=
  { s with store := { s.store with descs := upd s.store.descs d ⟨x, .sound⟩ } }

/-- The contents of a cell map entry. -/
def State.mapEntry (s : State) (c : CellId) : MapEntry := (s.store.map.get c).val

/-- A cell map entry written, with a code that matches (R155). -/
def State.putMap (s : State) (c : CellId) (x : MapEntry) : State :=
  { s with store := { s.store with map := upd s.store.map c ⟨x, .sound⟩ } }

/-- The space record of a host (R92). -/
def State.space (s : State) (h : HostId) : SpaceRecord := s.store.space.get h

/-- The state with a space record replaced. -/
def State.setSpace (s : State) (h : HostId) (r : SpaceRecord) : State :=
  { s with store := { s.store with space := upd s.store.space h r } }

/-- The stream record of a host (R83). -/
def State.stream (s : State) (h : HostId) : StreamRecord := s.store.streams.get h

/-- The state with a stream record replaced. -/
def State.setStream (s : State) (h : HostId) (r : StreamRecord) : State :=
  { s with store := { s.store with streams := upd s.store.streams h r } }

/-- The inbound queue of a host: URGENT before NORMAL (R89). -/
def State.queue (s : State) (h : HostId) : List DescId :=
  (s.store.inbound.get h).urgent ++ (s.store.inbound.get h).normal

/-- The notice ring of a host, oldest first (R136). -/
def State.ring (s : State) (h : HostId) : List Notice := s.notice.rings.get h

/-- The lost count of a host (R136). -/
def State.lost (s : State) (h : HostId) : Nat := s.notice.lost.get h

/-- The overrun flag of a port set (R172). -/
def State.setOverrun (s : State) (h : HostId) : State := s.setPort h { s.port h with overrun := true }

/-- The value of a setting as the settings block recorded it (R147). -/
def State.setting (s : State) : Setting → Nat
  | .tickDiv => s.settings.tickDiv
  | .presenceTerm => s.settings.presenceTerm
  | .descQuota => s.settings.descQuota
  | .cellQuota => s.settings.cellQuota
  | .inboundLimit => s.settings.inboundLimit
  | .spaceHold => s.settings.spaceHold

/-- A setting recorded (R148). -/
def State.setSetting (s : State) (x : Setting) (v : Nat) : State :=
  { s with settings :=
      match x with
      | .tickDiv => { s.settings with tickDiv := v }
      | .presenceTerm => { s.settings with presenceTerm := v }
      | .descQuota => { s.settings with descQuota := v }
      | .cellQuota => { s.settings with cellQuota := v }
      | .inboundLimit => { s.settings with inboundLimit := v }
      | .spaceHold => { s.settings with spaceHold := v } }

/-! ## Replies -/

/-- A reply sent to the port of a host (R171). -/
def State.sendReply (s : State) (h : HostId) (r : Reply) : State :=
  s.setPort h { s.port h with replies := (s.port h).replies ++ [r] }

/-- A reply with a status and further words sent for a command. -/
def State.reply (s : State) (h : HostId) (id : Nat) (st : Status) (ws : List Word) : State :=
  s.sendReply h ⟨id, st.code :: ws, false⟩

/-! ## Notices offered (R137) -/

/-- A notice offered to a host in one of its sessions (log 6). -/
def State.offer (s : State) (h : HostId) (n : Notice) (session : Option Nat) : State :=
  { s with notice := { s.notice with offers := upd s.notice.offers h (s.notice.offers.get h ++ [⟨n, session⟩]) } }

/-- The session in which the directory counts a host, or finishes its departure (R6, R64). -/
def State.dirSession (s : State) (h : HostId) : Option Nat :=
  match s.dir.joined.get h with
  | some k => some k
  | none => (s.dir.departing.get h).map Departing.session

/-- A notice offered to a host by the lease directory. -/
def State.offerDir (s : State) (h : HostId) (n : Notice) : State := s.offer h n (s.dirSession h)

/-- A notice offered to a host by the message store. -/
def State.offerStore (s : State) (h : HostId) (n : Notice) : State := s.offer h n (s.store.joined.get h)

/-- A notice offered by the presence unit to each other host that is JOINED (R7, R16). -/
def State.offerPeers (s : State) (h : HostId) (n : Notice) : State :=
  allHosts.foldl
    (fun s g => if g ≠ h ∧ (s.record g).state = .joined then s.offer g n (some (s.record g).session) else s) s

/-! ## Findings of the check logic (R156, R157) -/

/-- A corrected error goes to the settings block to be counted (R156). -/
def State.raiseCorrected (s : State) : State :=
  { s with settings := { s.settings with correctedDue := s.settings.correctedDue + 1 } }

/-- An uncorrectable finding goes to the settings block to be counted (R157). -/
def State.raiseUncorrected (s : State) : State :=
  { s with settings := { s.settings with uncorrectedDue := s.settings.uncorrectedDue + 1 } }

/-- A finding of the directory: counted, and FAULT offered to every host it counts JOINED (R157). -/
def State.dirFinding (s : State) (l : LeaseId) : State :=
  allHosts.foldl
    (fun s g => if (s.dir.joined.get g).isSome then s.offerDir g (.fault .directory l.val) else s) s.raiseUncorrected

/-- A finding of the store: counted, and FAULT offered to every host it counts JOINED (R157). -/
def State.storeFinding (s : State) (k : ObjectKind) (index : Nat) : State :=
  allHosts.foldl
    (fun s g => if (s.store.joined.get g).isSome then s.offerStore g (.fault k index) else s) s.raiseUncorrected

/-! ## How bit errors arise

No row of the table makes a bit error: the board does, between two steps (log 11). -/

/-- One more bit in error. -/
def Check.upset : Check → Check
  | .sound => .correctable
  | .correctable | .uncorrectable => .uncorrectable

/-- A bit error arises in a lease entry. -/
def State.upsetEntry (s : State) (l : LeaseId) : State :=
  { s with dir := { s.dir with entries := upd s.dir.entries l ⟨s.entry l, (s.dir.entries.get l).chk.upset⟩ } }

/-- A bit error arises in a descriptor. -/
def State.upsetDesc (s : State) (d : DescId) : State :=
  { s with store := { s.store with descs := upd s.store.descs d ⟨s.desc d, (s.store.descs.get d).chk.upset⟩ } }

/-- A bit error arises in a cell map entry. -/
def State.upsetMap (s : State) (c : CellId) : State :=
  { s with store := { s.store with map := upd s.store.map c ⟨s.mapEntry c, (s.store.map.get c).chk.upset⟩ } }

/-- A bit error arises in a cell; while two bits are in error the cell's bytes are the stored ones (R164), here given. -/
def State.upsetCell (s : State) (c : CellId) (stored : List Byte) : State :=
  { s with store := { s.store with
      cellChk := upd s.store.cellChk c (s.store.cellChk.get c).upset
      payload := if (s.store.cellChk.get c).upset = .uncorrectable
        then Memory.writeBytes s.store.payload (cellAddr c 0) (stored.take Config.cellBytes) else s.store.payload } }

/-! ## The command path (R6, R170) -/

/-- Argument word i of a command; a word beyond the frame reads as 0 (R170). -/
def Command.arg (c : Command) (i : Nat) : Word := c.args.getD i 0#16

/-- The command is this host's command of this kind with these argument words. -/
def Command.isFor (c : Command) (h : HostId) (k : CommandKind) (args : List Word) : Bool :=
  decide (c.host = h) && decide (c.code = k.code) && decide ((List.range args.length).map c.arg = args)

/-- The item is a command of this host. -/
def PathItem.isCommandOf (i : PathItem) (h : HostId) : Bool :=
  match i with
  | .command c => decide (c.host = h)
  | .join .. | .departure .. => false

/-- The item the store takes next among those from the presence unit. PAY words ahead of it stay; a command never
overtakes a PAY word of its own host, and joins and departures may (R111, R174). -/
def takeStoreItem : List StoreItem → Option (PathItem × List StoreItem)
  | [] => none
  | .path i :: rest => some (i, rest)
  | .pay h w :: rest =>
    match takeStoreItem rest with
    | none => none
    | some (i, rest') => if i.isCommandOf h then none else some (i, .pay h w :: rest')

/-- The oldest PAY word of a host, when no command of that host stands before it (R111, R174). -/
def takePayWord (h : HostId) : List StoreItem → Option (Word × List StoreItem)
  | [] => none
  | .pay g w :: rest =>
    if g = h then some (w, rest)
    else (takePayWord h rest).map fun x => (x.1, .pay g w :: x.2)
  | .path i :: rest =>
    if i.isCommandOf h then none
    else (takePayWord h rest).map fun x => (x.1, .path i :: x.2)

/-- The directory's path without its first item. -/
def State.setDirPath (s : State) (p : List PathItem) : State := { s with dir := { s.dir with path := p } }

/-- The store's path replaced. -/
def State.setStorePath (s : State) (p : List StoreItem) : State := { s with store := { s.store with path := p } }

/-- The notice unit's path replaced. -/
def State.setNoticePath (s : State) (p : List PathItem) : State := { s with notice := { s.notice with path := p } }

/-- The settings block's path replaced. -/
def State.setSettingsPath (s : State) (p : List PathItem) : State :=
  { s with settings := { s.settings with path := p } }

/-- The directory takes the command, when it is the next item on its path: the command's number and the state without
it. A lease command comes from a host that the directory counts JOINED (R6, R65). -/
def State.takeDirCommand (s : State) (h : HostId) (k : CommandKind) (args : List Word) : Option (Nat × State) :=
  match s.dir.path with
  | .command c :: rest =>
    if c.isFor h k args = true ∧ (s.dir.joined.get h).isSome then some (c.id, s.setDirPath rest) else none
  | _ => none

/-- The store takes the command, when it is the next item from the presence unit on its path (R6, R111). -/
def State.takeStoreCommand (s : State) (h : HostId) (k : CommandKind) (args : List Word) : Option (Nat × State) :=
  match takeStoreItem s.store.path with
  | some (.command c, rest) => if c.isFor h k args = true then some (c.id, s.setStorePath rest) else none
  | _ => none

/-- The store takes a COMMIT or an ACCEPT, whose question to the directory may give its host a tie to a lease. The
directory then counts the host JOINED in the session in which the store does (R65, R115, R133, log 28). -/
def State.takeTransferCommand (s : State) (h : HostId) (k : CommandKind) : Option (Nat × State) :=
  if (s.dir.joined.get h).isSome ∧ s.dir.joined.get h = s.store.joined.get h then s.takeStoreCommand h k [] else none

/-- The item is a COMMIT or an ACCEPT of this host. -/
def StoreItem.isTransferOf (i : StoreItem) (h : HostId) : Bool :=
  match i with
  | .path (.command c) => decide (c.host = h) && (decide (c.code = CommandKind.commit.code) || decide (c.code = CommandKind.accept.code))
  | .path (.join ..) | .path (.departure ..) | .pay .. => false

/-- The item is the departure of this host that ends this session. -/
def StoreItem.isDepartureOf (i : StoreItem) (h : HostId) (session : Nat) : Bool :=
  match i with
  | .path (.departure g _ k) => decide (g = h) && decide (k = session)
  | .path (.command _) | .path (.join ..) | .pay .. => false

/-- The store has still to take a COMMIT or an ACCEPT of this host that was admitted before this departure of it
(R115, R133, log 28). -/
def transferAhead (h : HostId) (session : Nat) (p : List StoreItem) : Bool :=
  (p.any fun i => i.isDepartureOf h session)
    && (p.takeWhile fun i => !i.isDepartureOf h session).any fun i => i.isTransferOf h

/-- The notice unit takes the command, when it is the next item on its path (R6). -/
def State.takeNoticeCommand (s : State) (h : HostId) (k : CommandKind) (args : List Word) : Option (Nat × State) :=
  match s.notice.path with
  | .command c :: rest => if c.isFor h k args = true then some (c.id, s.setNoticePath rest) else none
  | _ => none

/-- The settings block takes the command, when it is the next item on its path (R6). -/
def State.takeSettingsCommand (s : State) (h : HostId) (k : CommandKind) (args : List Word) : Option (Nat × State) :=
  match s.settings.path with
  | .command c :: rest => if c.isFor h k args = true then some (c.id, s.setSettingsPath rest) else none
  | _ => none

/-! ## Admission (R4, R5) -/

/-- The PAY words that stood behind the port's command go on to the store (R111). -/
def State.passParked (s : State) (h : HostId) : State :=
  (s.setStorePath (s.store.path ++ (s.port h).parked.map (StoreItem.pay h))).setPort h
    { s.port h with parked := [] }

/-- The term of a JOINED host is set to the PRESENCE_TERM in force; no other host's term starts (R5). -/
def State.reloadTerm (s : State) (h : HostId) : State :=
  if (s.record h).state = .joined then s.setRecord h { s.record h with term := some s.settings.presenceTerm } else s

/-- The presence unit takes the command written at port h off the port. -/
def State.takeWritten (s : State) (h : HostId) : State :=
  s.setPort h { s.port h with unadmitted := none }

/-- The presence unit takes the command at port h, when there is one that is wanted and the port is not OFFLINE (R4):
off the port, the term of a JOINED host reloaded (R5). -/
def State.takeFromPort (s : State) (h : HostId) (want : Command → Bool) : Option (Command × State) :=
  match (s.port h).unadmitted with
  | some c =>
    if want c = true ∧ (s.record h).state ≠ .offline then some (c, (s.takeWritten h).reloadTerm h) else none
  | none => none

/-- The presence unit takes a command of its own from port h (R4): its number, and the state with the PAY words behind
it passed on (R111). An EVICT of h that it admitted before comes first (R176, log 33). -/
def State.takePresenceCommand (s : State) (h : HostId) (k : CommandKind) (args : List Word) : Option (Nat × State) :=
  if (s.presence.evicting.get h).isSome then none
  else match s.takeFromPort h fun c => c.isFor h k args with
    | some (c, s) => some (c.id, s.passParked h)
    | none => none

/-- The presence unit goes on with the EVICT of h that it admitted (R80): its number, and the state without it. -/
def State.takeAdmittedEvict (s : State) (h : HostId) (target : Word) : Option (Nat × State) :=
  match s.presence.evicting.get h with
  | some c => if c.isFor h .evict [target] = true then some (c.id, s.setEvicting h none) else none
  | none => none

/-! ## Joins and departures announced (R6, R15, R16) -/

/-- An item announced along the command path to the directory, the store and the notice unit (R6). -/
def State.announce (s : State) (i : PathItem) : State :=
  ((s.setDirPath (s.dir.path ++ [i])).setStorePath (s.store.path ++ [.path i])).setNoticePath (s.notice.path ++ [i])

/-- The presence unit raises the departure of host h (R15, R16): h's record takes its new state and fence cause, keeps
its session and stops its term; the departure is announced with the session that ended, and delivered to h's port
unless a port reset is its cause (R175, R176); PEER_DEPARTED is offered to each other JOINED host. -/
def State.raiseDeparture (s : State) (h : HostId) (cause : DepartureCause) (st : PresenceState)
    (fence : Option FenceCause) : State :=
  let ended := (s.record h).session
  let s := s.setRecord h ⟨st, ended, none, fence⟩
  let s := s.announce (.departure h cause ended)
  let s := if cause = .portReset then s
    else s.setPort h { s.port h with departures := (s.port h).departures ++ [cause] }
  s.offerPeers h (.peerDeparted h cause)

/-! ## Window accesses (R166, R178, R179) -/

/-- An access of port h in a direction at a location takes place: always in PARALLEL mode, in SERIAL mode inside a
transaction whose header selected them (R178, R179). -/
def State.reaches (s : State) (h : HostId) (read : Bool) (loc : Loc) : Bool :=
  match (s.port h).mode with
  | .parallel => true
  | .serial => decide ((s.port h).serial = .data read loc)

/-- The host of a port is OFFLINE, so its window answers nothing (R166). -/
def State.offline (s : State) (h : HostId) : Bool := decide ((s.record h).state = .offline)

/-- A read access returns a word: on D15–D0 in PARALLEL mode (R178), on SDO, then driven, in SERIAL mode (R179). -/
def State.returnWord (s : State) (h : HostId) (w : Word) : State :=
  s.setPort h { s.port h with dataOut := w, sdoDriven := decide ((s.port h).mode = .serial) }

end Sys2Proof.Machine
end

