-- ==== Sys2Proof/Machine/DirectoryOps.lean ====
section
/-! DEFINITION. What the lease directory does inside its steps: the read of an entry, the rebuild, the grant scan, the
ends of a wait, stranding, the charter check, and its answers to the store's questions. -/

namespace Sys2Proof.Machine

open Sys2Proof

/-! ## Roles of a host in an entry -/

/-- The host acts as the exclusive owner: recorded owner of an EXCLUSIVE lease that is not in transit, or in transit
with owner present set (R24). -/
def LeaseEntry.acts (e : LeaseEntry) (h : HostId) : Bool :=
  decide (e.state = .exclusive) && decide (e.owner = some h) && (e.transit.isNone || e.ownerPresent)

/-- The host is the recorded owner of a lease in transit with owner present clear, and acts as owner of nothing
(R24). -/
def LeaseEntry.sentAway (e : LeaseEntry) (h : HostId) : Bool :=
  decide (e.state = .exclusive) && decide (e.owner = some h) && e.transit.isSome && !e.ownerPresent

/-- The host holds the lease, as a shared holder or as its acting owner (R29, R113). -/
def LeaseEntry.heldBy (e : LeaseEntry) (h : HostId) : Bool := HostSet.has e.holders h || e.acts h

/-- The entry that a rebuild writes (R158). -/
def LeaseEntry.rebuilt : LeaseEntry :=
  ⟨.stranded, none, 0#4, 0#16, 0#32, [], none, none, false, some .integrity⟩

/-- The entry entered into EXCLUSIVE under a host: the generation rises by one, wrapping (R22). -/
def LeaseEntry.enterExclusive (e : LeaseEntry) (h : HostId) : LeaseEntry :=
  { e with state := .exclusive, owner := some h, holders := 0#4, generation := e.generation + 1#16 }

/-- The entry without a host in its waiter list; the others keep their order (R43). -/
def LeaseEntry.dropWaiter (e : LeaseEntry) (h : HostId) : LeaseEntry :=
  { e with waiters := e.waiters.filter fun w => w.1 ≠ h }

/-! ## Reading an entry (R28, R155 to R158) -/

/-- An uncorrectable entry rebuilt as STRANDED with cause INTEGRITY; every wait on the lease, found from the wait
records, ends with STRANDED (R158). -/
def rebuildEntry (l : LeaseId) (s : State) : State :=
  allHosts.foldl
    (fun s h =>
      match s.wait h with
      | some r => if r.lease = l then (s.setWait h none).offerDir h (.stranded l none .integrity) else s
      | none => s)
    (s.putEntry l LeaseEntry.rebuilt)

/-- The directory reads an entry through the check logic (R28): true when the read found it uncorrectable and rebuilt
it (R158); a corrected entry is written back and counted (R156). -/
def readEntry (l : LeaseId) (s : State) : Bool × State :=
  match (s.dir.entries.get l).chk with
  | .sound => (false, s)
  | .correctable => (false, (s.putEntry l (s.entry l)).raiseCorrected)
  | .uncorrectable => (true, (rebuildEntry l s).dirFinding l)

/-! ## The grant scan (R55 to R58) -/

/-- A pending upgrade completed (R52). -/
def completeUpgrade (l : LeaseId) (h : HostId) (s : State) : State :=
  let e := { (s.entry l).enterExclusive h with upgrade := none }
  ((s.putEntry l e).setWait h none).offerDir h (.granted l .exclusive e.generation)

/-- The head waiter of a FREE lease granted exclusively (R56, row 3). -/
def grantExclusive (l : LeaseId) (h : HostId) (rest : List (HostId × LeaseMode)) (s : State) : State :=
  let e := { (s.entry l).enterExclusive h with waiters := rest }
  ((s.putEntry l e).setWait h none).offerDir h (.granted l .exclusive e.generation)

/-- The entry of a waiter is SHARED. -/
def isSharedWaiter (w : HostId × LeaseMode) : Bool := decide (w.2 = .shared)

/-- One host of a shared run: its wait record is emptied and GRANTED offered (R56, R58). -/
def grantSharedHost (l : LeaseId) (s : State) (w : HostId × LeaseMode) : State :=
  (s.setWait w.1 none).offerDir w.1 (.granted l .shared (s.entry l).generation)

/-- The run of consecutive SHARED waiters from the head granted, and its length (R56, row 4). -/
def grantSharedRun (l : LeaseId) (s : State) : State × Nat :=
  let e := s.entry l
  let run := e.waiters.takeWhile isSharedWaiter
  let e' := { e with
    state := .shared
    holders := run.foldl (fun x w => HostSet.insert x w.1) e.holders
    waiters := e.waiters.dropWhile isSharedWaiter }
  (run.foldl (grantSharedHost l) (s.putEntry l e'), run.length)

/-- The grant scan of a lease, with the number of hosts it admits: the first row of R56 that applies. No scan runs on a
STRANDED lease (R55). -/
def grantScan (l : LeaseId) (s : State) : State × Nat :=
  let e := s.entry l
  match e.upgrade with
  | some u =>
    if e.state = .shared ∧ e.holders = HostSet.single u then (completeUpgrade l u s, 1) else (s, 0)
  | none =>
    match e.state, e.waiters with
    | .free, (h, .exclusive) :: rest => (grantExclusive l h rest s, 1)
    | .free, (_, .shared) :: _ => grantSharedRun l s
    | .shared, (_, .shared) :: _ => grantSharedRun l s
    | _, _ => (s, 0)

/-! ## Giving up a hold or a wait -/

/-- A shared holder removed, and the scan that follows (R35, R66): its own pending upgrade goes with it and silently;
an emptied lease becomes FREE. -/
def dropHolder (l : LeaseId) (h : HostId) (s : State) : State × Nat :=
  let e := s.entry l
  let left := HostSet.erase e.holders h
  let e' := { e with
    state := if left = 0#4 then .free else e.state
    holders := left
    upgrade := if e.upgrade = some h then none else e.upgrade }
  let s := if e.upgrade = some h then s.setWait h none else s
  grantScan l (s.putEntry l e')

/-- A claim wait removed from the list and its record emptied, and the scan that follows unless the lease is STRANDED
(R46, R47, R69). -/
def dropClaimWait (l : LeaseId) (h : HostId) (s : State) : State × Nat :=
  let s := (s.putEntry l ((s.entry l).dropWaiter h)).setWait h none
  if (s.entry l).state = .stranded then (s, 0) else grantScan l s

/-- A pending upgrade removed and its record emptied, and the scan that follows; the host stays a shared holder
(R47, R53). -/
def dropUpgrade (l : LeaseId) (h : HostId) (s : State) : State × Nat :=
  let s := (s.putEntry l { s.entry l with upgrade := none }).setWait h none
  if (s.entry l).state = .stranded then (s, 0) else grantScan l s

/-- STRANDED offered to each host in the lease's waiter list (R75). -/
def offerStranded (l : LeaseId) (formerOwner : Option HostId) (cause : StrandedCause) (s : State) : State :=
  (s.entry l).waiters.foldl (fun s w => s.offerDir w.1 (.stranded l formerOwner cause)) s

/-- A lease stranded (R67, R73): the owner stays as former owner, the generation, the value and the waiters are kept,
the transit record goes, and no scan runs. -/
def strandEntry (l : LeaseId) (cause : StrandedCause) (s : State) : State :=
  let e := s.entry l
  offerStranded l e.owner cause
    (s.putEntry l { e with state := .stranded, cause := some cause, transit := none, ownerPresent := false })

/-! ## The directory's part of a departure at one lease (R64 to R69) -/

/-- The directory's part of h's departure at a lease: the entry is read, and h's role in it is taken back (R64). -/
def departAtLease (h : HostId) (l : LeaseId) (s : State) : State :=
  match readEntry l s with
  | (true, s) => s
  | (false, s) =>
    let e := s.entry l
    if HostSet.has e.holders h then (dropHolder l h s).1
    else if e.acts h && e.transit.isNone then strandEntry l .departed s
    else if e.acts h then s.putEntry l { e with ownerPresent := false }
    else if e.waiters.any fun w => w.1 = h then (dropClaimWait l h s).1
    else s

/-! ## The charter check (R26, R150) -/

/-- Answers to the charter check. -/
inductive CharterAnswer
  | pass | fail | damaged
  deriving DecidableEq, Repr

/-- The directory answers the charter check from L0's entry (R150). -/
def charterCheck (h : HostId) (s : State) : CharterAnswer × State :=
  match readEntry 0 s with
  | (true, s) => (.damaged, s)
  | (false, s) => (if (s.entry 0).acts h then .pass else .fail, s)

/-! ## The store's questions (R113, R120, R129, R131, R159) -/

/-- The lease's transit record names this descriptor (R159). -/
def LeaseEntry.carriedIn (e : LeaseEntry) (d : DescId) : Bool :=
  match e.transit with
  | some t => decide (t.desc = d)
  | none => false

/-- How a transfer ended, as the directory reports it to the store (R129, R131, R159). -/
inductive TransferEnd
  /-- the read found the entry uncorrectable, and the rebuild ended the transfer -/
  | damaged
  /-- no transit record names the descriptor: the lease is not touched -/
  | gone
  /-- the lease is back under its present sender -/
  | returned
  /-- the lease is stranded, cause HANDOFF -/
  | stranded
  deriving DecidableEq, Repr

/-- A transfer of an entry that was read sound fails (R131, R73). -/
def failEntry (l : LeaseId) (s : State) : TransferEnd × State :=
  let e := s.entry l
  if e.ownerPresent then (.returned, s.putEntry l { e with transit := none, ownerPresent := false })
  else (.stranded, strandEntry l .handoff s)

/-- The store reports that the transfer of a lease in a descriptor failed (R131, R159). -/
def transferFailed (l : LeaseId) (d : DescId) (s : State) : TransferEnd × State :=
  match readEntry l s with
  | (true, s) => (.damaged, s)
  | (false, s) => if (s.entry l).carriedIn d then failEntry l s else (.gone, s)

/-- The store reports the loss of a descriptor: the carrying of any lease whose transit record names it fails; each
entry searched is read through the check logic (R161, step 6). -/
def transfersLost (d : DescId) (s : State) : State :=
  allLeases.foldl
    (fun s l =>
      match readEntry l s with
      | (true, s) => s
      | (false, s) => if (s.entry l).carriedIn d then (failEntry l s).2 else s)
    s

/-- What the store learns of an acceptance (R123, R129, R159). -/
inductive AcceptAnswer
  | damaged
  | gone
  | completed (generation : Word) (value : BitVec 32) (waitRemoved : Bool)
  deriving DecidableEq, Repr

/-- The host's record is a claim wait on the lease. -/
def State.claimsLease (s : State) (h : HostId) (l : LeaseId) : Bool :=
  match s.wait h with
  | some r => decide (r.lease = l ∧ r.kind ≠ .upgrade)
  | none => false

/-- The transfer of an entry that was read sound completes to the recipient (R129, R130). -/
def completeEntry (l : LeaseId) (h : HostId) (s : State) : AcceptAnswer × State :=
  let e := s.entry l
  let waited := s.claimsLease h l
  let e' := { (e.enterExclusive h).dropWaiter h with transit := none, ownerPresent := false }
  let s := s.putEntry l e'
  let s := if waited then s.setWait h none else s
  let s := match e.owner, e.ownerPresent with
    | some sender, true => s.offerDir sender (.handed l h e'.generation)
    | _, _ => s
  (.completed e'.generation e'.value waited, s)

/-- The store passes the acceptance of a carried lease in a descriptor to the directory (R123, R129, R159). -/
def transferAccepted (l : LeaseId) (d : DescId) (h : HostId) (s : State) : AcceptAnswer × State :=
  match readEntry l s with
  | (true, s) => (.damaged, s)
  | (false, s) => if (s.entry l).carriedIn d then completeEntry l h s else (.gone, s)

/-- An optional entry read through the check logic. -/
def readOptEntry (l : Option LeaseId) (s : State) : Bool × State :=
  match l with
  | none => (false, s)
  | some l => readEntry l s

/-- Answers to COMMIT's question (R113). -/
inductive CommitAnswer
  | damaged
  | stale (lease : LeaseId) (generation : Word) (held : Bool)
  | notHolder (lease : LeaseId)
  | inTransit (lease : LeaseId)
  | pass (carried : Option (LeaseId × Word))
  deriving DecidableEq, Repr

/-- Check 4 of COMMIT: the fence lease is at the fence generation and the caller holds it; none when it passes
(R113). -/
def fenceRefusal (h : HostId) (fence : Option (LeaseId × Word)) (s : State) : Option CommitAnswer :=
  match fence with
  | none => none
  | some (l, g) =>
    if (s.entry l).generation = g ∧ (s.entry l).heldBy h = true then none
    else some (.stale l (s.entry l).generation ((s.entry l).heldBy h))

/-- COMMIT's question, one step at the leases it names: both entries read, checks 4 to 6, and the transfer started
(R113, R24). -/
def commitQuestion (h : HostId) (d : DescId) (m : Message) (s : State) : CommitAnswer × State :=
  let r1 := readOptEntry (m.fence.map Prod.fst) s
  let r2 := readOptEntry m.carried r1.2
  let s := r2.2
  if r1.1 || r2.1 then (.damaged, s)
  else match fenceRefusal h m.fence s with
    | some a => (a, s)
    | none =>
      match m.carried with
      | none => (.pass none, s)
      | some l =>
        let e := s.entry l
        if !e.acts h then (.notHolder l, s)
        else if e.transit.isSome then (.inTransit l, s)
        else (.pass (some (l, e.generation)),
          s.putEntry l { e with transit := some ⟨d, m.dest⟩, ownerPresent := true })

/-- OPEN's questions, in one step: the fence entry and the carried entry read (R120, R159). -/
structure OpenAnswer where
  damaged : Bool
  fenceCurrent : Bool
  carried : Option LeaseId
  deriving DecidableEq, Repr

/-- OPEN's questions: is the fence lease at the fence generation (R120), and is the carried lease in transit in this
descriptor (R159). -/
def openQuestion (d : DescId) (m : Message) (s : State) : OpenAnswer × State :=
  let r1 := readOptEntry (m.fence.map Prod.fst) s
  let r2 := readOptEntry m.carried r1.2
  let s := r2.2
  let current := match m.fence with
    | none => false
    | some (l, g) => decide ((s.entry l).generation = g)
  let carried := match m.carried with
    | none => none
    | some l => if (s.entry l).carriedIn d then some l else none
  (⟨r1.1 || r2.1, current, carried⟩, s)

end Sys2Proof.Machine
end

