-- ==== Sys2Proof/Machine/StoreOps.lean ====
section
/-! DEFINITION. What the message store does inside its steps: the reads of its objects and their findings, usage and
admission, the freeing and the loss of descriptors, the space scan, the payload's cells, bounces, the send window. -/

namespace Sys2Proof.Machine

open Sys2Proof

/-! ## Cell map entries (R84, R155, R162) -/

/-- The store reads a cell map entry: a corrected one is written back and counted (R156), an uncorrectable one retired
for good (R162). -/
def readMapEntry (s : State) (c : CellId) : State :=
  match (s.store.map.get c).chk with
  | .sound => s
  | .correctable => (s.putMap c (s.mapEntry c)).raiseCorrected
  | .uncorrectable => (s.putMap c .retired).storeFinding .cellMap c.val

/-- The store reads every cell map entry: a count, a lookup of a position and a freeing of cells do (R155, log 13). -/
def readMap (s : State) : State := allCells.foldl readMapEntry s

/-- The reads of the cell map for the cells of one descriptor, to look up its positions or to free them (R155, log 13).
A descriptor of no cells has no position to look up and no cell to free, and nothing is read. -/
def readMapFor (d : DescId) (s : State) : State := if (s.desc d).cellCount = 0 then s else readMap s

/-- The number of free cells. -/
def freeCells (s : State) : Nat := allCells.countP fun c => s.mapEntry c = .free

/-- The number of retired cells. -/
def retiredCells (s : State) : Nat := allCells.countP fun c => s.mapEntry c = .retired

/-- The cell map entry is owned by this descriptor at a position from `lo` on. -/
def MapEntry.ownedFrom (x : MapEntry) (d : DescId) (lo : Nat) : Bool :=
  match x with
  | .owned d' p => decide (d' = d ∧ lo ≤ p)
  | .free | .retired => false

/-- The number of cells a descriptor owns at positions from `lo` on. -/
def ownedCells (d : DescId) (lo : Nat) (s : State) : Nat := allCells.countP fun c => (s.mapEntry c).ownedFrom d lo

/-- The cells a descriptor owns at positions from `lo` on become free (R85, R107). -/
def freeOwned (d : DescId) (lo : Nat) (s : State) : State :=
  allCells.foldl (fun s c => if (s.mapEntry c).ownedFrom d lo then s.putMap c .free else s) s

/-- The cell at a sequence position of a descriptor, if the position has one (R84, R162). -/
def lookupCell (d : DescId) (pos : Nat) (s : State) : Option CellId :=
  allCells.find? fun c => s.mapEntry c = .owned d pos

/-- The n lowest-numbered free cells given to a descriptor, in increasing cell order, at positions from `pos` on
(R84). -/
def takeCells (d : DescId) (pos n : Nat) (s : State) : State :=
  ((allCells.filter fun c => s.mapEntry c = .free).take n).zipIdx.foldl
    (fun s x => s.putMap x.1 (.owned d (pos + x.2))) s

/-! ## Usage and admission (R86, R87) -/

/-- The descriptor is in use with this host as its source (R86). -/
def Descriptor.usedBy (x : Descriptor) (h : HostId) : Bool := decide (x.state ≠ .free) && decide (x.source = h)

/-- A host's descriptor usage (R86). -/
def descUsage (h : HostId) (s : State) : Nat := allDescs.countP fun d => (s.desc d).usedBy h

/-- The cell map entry counts against the host: its owner is in use with this host as source (R86). -/
def State.cellUsedBy (s : State) (c : CellId) (h : HostId) : Bool :=
  match s.mapEntry c with
  | .owned d _ => (s.desc d).usedBy h
  | .free | .retired => false

/-- A host's cell usage (R86). -/
def cellUsage (h : HostId) (s : State) : Nat := allCells.countP fun c => s.cellUsedBy c h

/-- The number of FREE descriptors. -/
def freeDescs (s : State) : Nat := allDescs.countP fun d => (s.desc d).state = .free

/-- The lowest-numbered FREE descriptor (R82). -/
def lowestFree (s : State) : Option DescId := allDescs.find? fun d => (s.desc d).state = .free

/-- The quota test for one descriptor and n cells (R87). -/
def quotaTest (h : HostId) (n : Nat) (s : State) : Bool :=
  decide (descUsage h s + 1 ≤ s.store.descQuota) && decide (cellUsage h s + n ≤ s.store.cellQuota)

/-- The pool test for one descriptor and n cells (R87). -/
def poolTest (n : Nat) (s : State) : Bool := decide (1 ≤ freeDescs s) && decide (n ≤ freeCells s)

/-- A request of n cells fits when both tests pass (R87). -/
def fits (h : HostId) (n : Nat) (s : State) : Bool := quotaTest h n s && poolTest n s

/-! ## A descriptor returns to FREE (R83, R85, R161) -/

/-- The queue without a descriptor. -/
def InboundQueue.drop (q : InboundQueue) (d : DescId) : InboundQueue :=
  ⟨q.urgent.filter fun x => x ≠ d, q.normal.filter fun x => x ≠ d⟩

/-- The stream record without a descriptor (R83). -/
def StreamRecord.drop (r : StreamRecord) (d : DescId) : StreamRecord :=
  ⟨if r.assembling = some d then none else r.assembling, if r.openDesc = some d then none else r.openDesc, r.readPos⟩

/-- The space record without a descriptor (R97). -/
def SpaceRecord.drop (r : SpaceRecord) (d : DescId) : SpaceRecord :=
  match r with
  | .reserved d' _ => if d' = d then .empty else r
  | .empty | .waiting .. => r

/-- A descriptor removed from the queues, stream records and space records that name it (R83, R85, R97, R161). -/
def unlinkDesc (d : DescId) (s : State) : State :=
  { s with store := { s.store with
      inbound := s.store.inbound.map fun q => q.drop d
      streams := s.store.streams.map fun r => r.drop d
      space := s.store.space.map fun r => r.drop d } }

/-- A descriptor set FREE on a cell map that has been read: the cells it owns are freed, what names it names it no
longer, and every field is cleared (R85). -/
def clearDesc (d : DescId) (s : State) : State :=
  (unlinkDesc d (freeOwned d 0 s)).putDesc d Descriptor.cleared

/-- A descriptor returns to FREE (R85): its cells are found by reading the map. The space scan that follows is the
caller's. -/
def freeDesc (d : DescId) (s : State) : State := clearDesc d (readMapFor d s)

/-- An uncorrectable descriptor lost, but for the space scan that ends its step (R161, steps 1 to 6). Its fields are not
trusted: the whole map is scanned, whatever its cell count says. -/
def loseDescCore (d : DescId) (s : State) : State :=
  transfersLost d ((clearDesc d (readMap s)).storeFinding .descriptor d.val)

/-- The store reads a descriptor, the scan after a loss left to the caller: true when it was lost (R155, R156,
R161). -/
def readDescCore (d : DescId) (s : State) : Bool × State :=
  match (s.store.descs.get d).chk with
  | .sound => (false, s)
  | .correctable => (false, (s.putDesc d (s.desc d)).raiseCorrected)
  | .uncorrectable => (true, loseDescCore d s)

/-- The store reads every descriptor, as a count of usage does (R155); true when any was lost. -/
def readDescs (s : State) : Bool × State :=
  allDescs.foldl (fun x d => ((readDescCore d x.2).1 || x.1, (readDescCore d x.2).2)) (false, s)

/-! ## The space scan (R95) -/

/-- A host's entry removed from the space waiter list (R92). -/
def leaveSpaceList (h : HostId) (s : State) : State :=
  { s with store := { s.store with spaceList := s.store.spaceList.filter fun g => g ≠ h } }

/-- A descriptor and n cells reserved for a host, taken out of the space waiter list if it was there; SPACE_READY is
offered (R95, R100). -/
def grantSpace (h : HostId) (n : Nat) (s : State) : State :=
  match lowestFree s with
  | none => s
  | some d =>
    let s := s.putDesc d ⟨.reserved, h, (s.store.joined.get h).getD 0, n, false, none⟩
    let s := leaveSpaceList h (takeCells d 0 n s)
    (s.setSpace h (.reserved d s.settings.spaceHold)).offerStore h (.spaceReady n)

/-- A space wait ended with SPACE_EXPIRED: out of the list, its record emptied (R95, R96). -/
def expireSpaceWait (h : HostId) (n : Nat) (s : State) : State :=
  ((leaveSpaceList h s).setSpace h .empty).offerStore h (.spaceExpired n)

/-- The entries whose cell count exceeds CELL_QUOTA in force removed (R95). -/
def dropOverQuota (s : State) : State :=
  s.store.spaceList.foldl
    (fun s h =>
      match s.space h with
      | .waiting n _ => if s.store.cellQuota < n then expireSpaceWait h n s else s
      | .empty | .reserved .. => s)
    s

/-- Heads granted while they fit; the first that does not fit stops the scan (R95). -/
def scanHeads : List HostId → State → State × Nat
  | [], s => (s, 0)
  | h :: rest, s =>
    match s.space h with
    | .waiting n _ =>
      if fits h n s then ((scanHeads rest (grantSpace h n s)).1, (scanHeads rest (grantSpace h n s)).2 + 1) else (s, 0)
    | .empty | .reserved .. => (s, 0)

/-- The space scan with the number of hosts it grants (R95). A scan with an empty list does nothing (R85); else its
tests are counts, which read every descriptor and cell map entry first (R155, log 25). -/
def spaceScan (s : State) : State × Nat :=
  let s := dropOverQuota s
  if s.store.spaceList = [] then (s, 0)
  else
    let s := readMap (readDescs s).2
    scanHeads s.store.spaceList s

/-- The reads of a count of usage, free cells or FREE descriptors, with the handling of what they find: the count is
made on the state this leaves (R155, R157). A loss ends with its own space scan (R161, step 7). -/
def readForCount (s : State) : State :=
  let r := readDescs s
  if r.1 then (spaceScan (readMap r.2)).1 else readMap r.2

/-- The store reads one descriptor for a command: true when it was lost, its space scan included (R161). -/
def readDesc (d : DescId) (s : State) : Bool × State :=
  let r := readDescCore d s
  (r.1, if r.1 then (spaceScan r.2).1 else r.2)

/-! ## Bounces (R126) -/

/-- A bounce passes the session filter when the store counts the source JOINED in the descriptor's source session
(R126). -/
def passesFilter (source : HostId) (session : Nat) (s : State) : Bool :=
  decide (s.store.joined.get source = some session)

/-- A bounce offered through the session filter (R126). -/
def bounce (x : Descriptor) (m : Message) (reason : BounceReason) (lease : Option LeaseId) (s : State) : State :=
  if passesFilter x.source x.session s then s.offerStore x.source (.bounced m.tag m.dest reason lease) else s

/-- The lease that a bounce carries: the carried lease when the directory returned it (R126). -/
def returnedLease (carried : Option LeaseId) (t : TransferEnd) : Option LeaseId :=
  if t = .returned then carried else none

/-- The failed transfer of a message's carried lease reported to the directory; `gone` when it carries none (R131). -/
def failCarried (d : DescId) (m : Message) (s : State) : TransferEnd × State :=
  match m.carried with
  | none => (.gone, s)
  | some l => transferFailed l d s

/-! ## Payload (R110, R121, R162, R164) -/

/-- A descriptor's damaged flag set (R162, R164). -/
def markDamaged (d : DescId) (s : State) : State := s.putDesc d { s.desc d with damaged := true }

/-- What the next read of a cell finds, replaced. -/
def State.setCellChk (s : State) (c : CellId) (k : Check) : State :=
  { s with store := { s.store with cellChk := upd s.store.cellChk c k } }

/-- Bytes written to a cell from an offset on; its code is written afresh (R155). -/
def writeCell (c : CellId) (offset : Nat) (bytes : List Byte) (s : State) : State :=
  ({ s with store := { s.store with
      payload := Memory.writeBytes s.store.payload (cellAddr c offset)
        (bytes.take (Config.cellBytes - offset)) } }).setCellChk c .sound

/-- The store reads a cell for a message: corrected and counted (R156), or found uncorrectable, which marks the message
damaged and leaves the bytes as they are stored (R164). -/
def readCell (d : DescId) (c : CellId) (s : State) : State :=
  match s.store.cellChk.get c with
  | .sound => s
  | .correctable => (s.setCellChk c .sound).raiseCorrected
  | .uncorrectable => (markDamaged d s).storeFinding .cell c.val

/-- The bytes of a word, the earlier byte in bits 7–0 (R110). -/
def wordBytes (w : Word) : List Byte := [w.extractLsb' 0 8, w.extractLsb' 8 8]

/-- The word of an earlier and a later byte (R121). -/
def packBytes (early late : Byte) : Word := late ++ early

/-- Bytes appended at the written position k of an assembling message (R110): into the cell at position k / 16, the
first word of a cell writing the whole of it, the bytes dropped where the position has lost its cell (R162). -/
def appendBytes (d : DescId) (k : Nat) (bytes : List Byte) (s : State) : State :=
  let s := readMap s
  let offset := k % Config.cellBytes
  match lookupCell d (k / Config.cellBytes) s with
  | none => markDamaged d s
  | some c =>
    if offset = 0 then writeCell c 0 (bytes ++ List.replicate (Config.cellBytes - bytes.length) 0#8) s
    else writeCell c offset bytes (readCell d c s)

/-- The written count of a descriptor raised (R110). -/
def advanceWritten (d : DescId) (n : Nat) (s : State) : State :=
  match (s.desc d).msg with
  | none => s
  | some m => s.putDesc d { s.desc d with msg := some { m with written := m.written + n } }

/-- The store takes a PAY word of h (R110, R111): appended to h's assembling message, or discarded with overrun. -/
def storePayWord (h : HostId) (w : Word) (s : State) : State :=
  match (s.stream h).assembling with
  | none => s.setOverrun h
  | some d =>
    match (s.desc d).msg with
    | none => s.setOverrun h
    | some m =>
      if m.length ≤ m.written then s.setOverrun h
      else
        let n := min 2 (m.length - m.written)
        advanceWritten d n (appendBytes d m.written ((wordBytes w).take n) s)

/-- The word read at position k of an open message, n bytes of it (R121): 0 for bytes whose position has lost its cell
(R162). The cell is looked up and read through the check logic. -/
def fetchBytes (d : DescId) (k n : Nat) (s : State) : Word × State :=
  let s := readMap s
  let offset := k % Config.cellBytes
  match lookupCell d (k / Config.cellBytes) s with
  | none => (0#16, markDamaged d s)
  | some c =>
    let s := readCell d c s
    let early := Memory.read s.store.payload (cellAddr c offset)
    let late := if n = 2 then Memory.read s.store.payload (cellAddr c (offset + 1)) else 0#8
    (packBytes early late, s)

/-- The store takes a PAY read of h (R121): the word and the state; 0 with overrun at the end or with nothing open. -/
def storePayRead (h : HostId) (s : State) : Word × State :=
  match (s.stream h).openDesc with
  | none => (0#16, s.setOverrun h)
  | some d =>
    let k := (s.stream h).readPos
    let length := match (s.desc d).msg with
      | some m => m.length
      | none => 0
    if length ≤ k then (0#16, s.setOverrun h)
    else
      let n := min 2 (length - k)
      let x := fetchBytes d k n s
      (x.1, x.2.setStream h { x.2.stream h with readPos := k + n })

/-! ## The send window (R88) -/

/-- The room for further cells of a host: the smaller of the free cells and CELL_QUOTA minus its cell usage (R88). -/
def cellRoom (h : HostId) (s : State) : Nat := min (freeCells s) (s.store.cellQuota - cellUsage h s)

/-- The send window of a host (R88). -/
def sendWindow (h : HostId) (s : State) : Nat :=
  if (s.store.joined.get h).isNone then 0
  else match s.space h with
    | .reserved d _ => min Config.maxCells ((s.desc d).cellCount + cellRoom h s)
    | .empty | .waiting .. =>
      if s.store.spaceList ≠ [] then 0
      else if freeDescs s = 0 ∨ s.store.descQuota ≤ descUsage h s then 0
      else min Config.maxCells (cellRoom h s)

end Sys2Proof.Machine
end

