-- ==== Sys2Proof/Machine/Space.lean ====
section
/-! DEFINITION. SPACE_WAIT, SPACE_CANCEL, and the ends of space waits and reservations on ticks, each one step of the
message store (chapter 5). -/

namespace Sys2Proof.Machine

open Sys2Proof

/-- The reply NO_SPACE: FREE descriptors, free cells, and the length of the space waiter list (R94, R108). -/
def replyNoSpace (h : HostId) (id : Nat) (s : State) : State :=
  s.reply h id .noSpace [word (freeDescs s), word (freeCells s), word s.store.spaceList.length]

/-- The reply QUOTA: the caller's descriptor and cell usage (R94, R108). -/
def replyQuota (h : HostId) (id : Nat) (s : State) : State :=
  s.reply h id .quota [word (descUsage h s), word (cellUsage h s)]

/-- A space request granted at once (R93, step 4): OK with the descriptor, the cells and the hold (R94). -/
def spaceGranted (h : HostId) (id n : Nat) (s : State) : State :=
  match lowestFree s with
  | none => replyNoSpace h id s
  | some d => (grantSpace h n s).reply h id .ok [word d.val, word n, word s.settings.spaceHold]

/-- A space request queued at the tail of the list (R93, step 6; R94). -/
def spaceQueued (h : HostId) (id n : Nat) (wait : Word) (s : State) : State :=
  let list := s.store.spaceList ++ [h]
  (({ s with store := { s.store with spaceList := list } }).setSpace h (.waiting n (parseDeadline wait))).reply h id
    .queued [word list.length, word n, deadlineWord (parseDeadline wait)]

/-- SPACE_WAIT taken by the store: the steps of R93. A step that counts reads the store's objects first (log 14). -/
def spaceWaitTaken (h : HostId) (id : Nat) (cells wait : Word) (s : State) : State :=
  let n := cells.toNat
  if Config.maxCells < n then s.reply h id .badArg []
  else if s.space h ≠ .empty then s.reply h id .waiting []
  else if s.store.cellQuota < n then replyQuota h id (readForCount s)
  else if s.store.spaceList = [] then
    let s := readForCount s
    if fits h n s then spaceGranted h id n s
    else if wait = 0#16 then (if quotaTest h n s then replyNoSpace h id s else replyQuota h id s)
    else spaceQueued h id n wait s
  else if wait = 0#16 then
    let s := readForCount s
    if quotaTest h n s then replyNoSpace h id s else replyQuota h id s
  else spaceQueued h id n wait s

/-- SPACE_WAIT (R93, R94). -/
def execSpaceWait (h : HostId) (cells wait : Word) (s : State) : Host.Outcome State Fault Refusal :=
  match s.takeStoreCommand h .spaceWait [cells, wait] with
  | some (id, s) => .next (spaceWaitTaken h id cells wait s)
  | none => .next s

/-- SPACE_CANCEL taken by the store (R98). -/
def spaceCancelTaken (h : HostId) (id : Nat) (s : State) : State :=
  match s.space h with
  | .empty => s.reply h id .none []
  | .waiting n _ =>
    let x := spaceScan ((leaveSpaceList h s).setSpace h .empty)
    x.1.reply h id .ok [word 1, word n, word x.2]
  | .reserved d _ =>
    let n := (s.desc d).cellCount
    let x := spaceScan ((freeDesc d s).setSpace h .empty)
    x.1.reply h id .ok [word 2, word n, word x.2]

/-- SPACE_CANCEL (R98). -/
def execSpaceCancel (h : HostId) (s : State) : Host.Outcome State Fault Refusal :=
  match s.takeStoreCommand h .spaceCancel [] with
  | some (id, s) => .next (spaceCancelTaken h id s)
  | none => .next s

/-- SPACE_WAIT_EXPIRY (R96): due when a tick has lowered the deadline of h's space wait to 0. -/
def execSpaceWaitExpiry (h : HostId) (s : State) : Host.Outcome State Fault Refusal :=
  match s.space h with
  | .waiting n (some 0) => .next (spaceScan (expireSpaceWait h n s)).1
  | _ => .next s

/-- RESERVATION_LAPSE (R97): due when a tick has lowered the hold of h's reservation to 0. -/
def execReservationLapse (h : HostId) (s : State) : Host.Outcome State Fault Refusal :=
  match s.space h with
  | .reserved d 0 =>
    .next (spaceScan (((freeDesc d s).setSpace h .empty).offerStore h (.spaceLapsed (s.desc d).cellCount))).1
  | _ => .next s

end Sys2Proof.Machine
end

