-- ==== Sys2Proof/Machine/Messages.lean ====
section
/-! DEFINITION. BEGIN, COMMIT, ABANDON, UNWIND, OPEN, ACCEPT and REFUSE, each one step of the message store (chapters 6
and 7). -/

namespace Sys2Proof.Machine

open Sys2Proof

/-! ## BEGIN -/

/-- The arguments of BEGIN as the fields they set; none when any is refused BAD_ARG (R104). -/
def parseBegin (h : HostId) (dest length cls tag fenceLease fenceGen carried : Word) : Option Message :=
  match parseHost dest, parseClass cls, parseOptLease fenceLease, parseOptLease carried with
  | some d, some c, some f, some x =>
    if d = h ∨ Config.maxLength < length.toNat then none
    else some ⟨d, c, tag, length.toNat, 0, f.map fun l => (l, fenceGen), x⟩
  | _, _, _, _ => none

/-- The cells a message needs: its length divided by 16 and rounded up (R105). -/
def cellsNeeded (length : Nat) : Nat := (length + 15) / Config.cellBytes

/-- The descriptor and the stream record that a BEGIN leaves: ASSEMBLING (R83, R106). -/
def assemble (h : HostId) (d : DescId) (session : Nat) (m : Message) (s : State) : State :=
  (s.putDesc d ⟨.assembling, h, session, cellsNeeded m.length, false, some m⟩).setStream h
    { s.stream h with assembling := some d }

/-- The reply OK to BEGIN: the cell count, whether a reservation was used, cells returned, cells taken (R108). -/
def replyBegin (h : HostId) (id n used returned taken : Nat) (s : State) : State :=
  s.reply h id .ok [word n, word used, word returned, word taken]

/-- BEGIN without a reservation: quota test, fairness condition, pool test, and the admission (R106). -/
def beginByAdmission (h : HostId) (id : Nat) (m : Message) (s : State) : State :=
  let n := cellsNeeded m.length
  let s := readForCount s
  if !quotaTest h n s then replyQuota h id s
  else if s.store.spaceList ≠ [] then replyNoSpace h id s
  else if !poolTest n s then replyNoSpace h id s
  else match lowestFree s with
    | none => replyNoSpace h id s
    | some d =>
      replyBegin h id n 0 0 n (takeCells d 0 n (assemble h d ((s.store.joined.get h).getD 0) m s))

/-- The reservation ends in the message: the descriptor ASSEMBLING in its recorded session, the record empty (R107). -/
def useReservation (h : HostId) (d : DescId) (m : Message) (s : State) : State :=
  (assemble h d (s.desc d).session m s).setSpace h .empty

/-- The shortfall of a reserved BEGIN has room (R107). -/
def topUpRoom (h : HostId) (k : Nat) (s : State) : Bool :=
  decide (cellUsage h s + k ≤ s.store.cellQuota) && decide (k ≤ freeCells s)

/-- BEGIN with the caller's reservation of descriptor d: kept, trimmed or topped up (R107). The top-up's count may lose
the reserved descriptor itself; the BEGIN then goes on without a reservation (log 16). -/
def beginInReservation (h : HostId) (id : Nat) (m : Message) (d : DescId) (s : State) : State :=
  let n := cellsNeeded m.length
  let r := (s.desc d).cellCount
  if n = r then replyBegin h id n 1 0 0 (useReservation h d m s)
  else if n < r then
    let s := readMap s
    let returned := ownedCells d n s
    replyBegin h id n 1 returned 0 (spaceScan (useReservation h d m (freeOwned d n s))).1
  else
    let s := readForCount s
    match s.space h with
    | .reserved .. =>
      if topUpRoom h (n - r) s then
        replyBegin h id n 1 0 (n - r) (takeCells d r (n - r) (useReservation h d m s))
      else replyNoSpace h id s
    | .empty | .waiting .. => beginByAdmission h id m s

/-- BEGIN taken by the store: STATE, BAD_ARG and NO_PEER in this order, then the message's space (R104, R105). -/
def beginTaken (h : HostId) (id : Nat) (dest length cls tag fenceLease fenceGen carried : Word) (s : State) : State :=
  if (s.stream h).assembling.isSome then s.reply h id .state []
  else match parseBegin h dest length cls tag fenceLease fenceGen carried with
    | none => s.reply h id .badArg []
    | some m =>
      if (s.store.joined.get m.dest).isNone then s.reply h id .noPeer [word m.dest.val]
      else match s.space h with
        | .reserved d _ => beginInReservation h id m d s
        | .empty | .waiting .. => beginByAdmission h id m s

/-- BEGIN (R104 to R109). -/
def execBegin (h : HostId) (dest length cls tag fenceLease fenceGen carried : Word) (s : State) :
    Host.Outcome State Fault Refusal :=
  match s.takeStoreCommand h .beginMessage [dest, length, cls, tag, fenceLease, fenceGen, carried] with
  | some (id, s) => .next (beginTaken h id dest length cls tag fenceLease fenceGen carried s)
  | none => .next s

/-! ## COMMIT -/

/-- A descriptor at the tail of its class in a queue (R89, R114). -/
def InboundQueue.push (q : InboundQueue) (d : DescId) : MsgClass → InboundQueue
  | .urgent => ⟨q.urgent ++ [d], q.normal⟩
  | .normal => ⟨q.urgent, q.normal ++ [d]⟩

/-- The message placed: QUEUED, at the tail of its class in its destination's queue, no longer assembling (R114). -/
def placeMessage (h : HostId) (d : DescId) (m : Message) (s : State) : State :=
  let s := s.putDesc d { s.desc d with state := .queued }
  let s := s.setStream h { s.stream h with assembling := none }
  { s with store := { s.store with
      inbound := upd s.store.inbound m.dest ((s.store.inbound.get m.dest).push d m.cls) } }

/-- COMMIT of a message whose descriptor was read sound: checks 1 to 3, the directory's checks, placement
(R112, R113, R114). -/
def commitMessage (h : HostId) (id : Nat) (d : DescId) (m : Message) (s : State) : State :=
  if m.written ≠ m.length then s.reply h id .short [word m.written, word m.length]
  else if (s.store.joined.get m.dest).isNone then s.reply h id .noPeer [word m.dest.val]
  else if s.store.inboundLimit ≤ (s.queue m.dest).length then
    s.reply h id .queueFull [word s.store.inboundLimit]
  else match commitQuestion h d m s with
    | (.damaged, s) => s.reply h id .damaged []
    | (.stale l g held, s) => s.reply h id .stale [word l.val, g, word (if held then 1 else 0)]
    | (.notHolder l, s) => s.reply h id .notHolder [word l.val]
    | (.inTransit l, s) => s.reply h id .inTransit [word l.val]
    | (.pass c, s) =>
      (placeMessage h d m s).reply h id .ok
        [word d.val, optLeaseWord (c.map Prod.fst), (c.map Prod.snd).getD noneWord, word (s.desc d).cellCount]

/-- COMMIT taken by the store (R112). -/
def commitTaken (h : HostId) (id : Nat) (s : State) : State :=
  match (s.stream h).assembling with
  | none => s.reply h id .none []
  | some d =>
    match readDesc d s with
    | (true, s) => s.reply h id .damaged []
    | (false, s) =>
      match (s.desc d).msg with
      | none => s.reply h id .none []
      | some m => commitMessage h id d m s

/-- COMMIT (R112 to R115). -/
def execCommit (h : HostId) (s : State) : Host.Outcome State Fault Refusal :=
  match s.takeTransferCommand h .commit with
  | some (id, s) => .next (commitTaken h id s)
  | none => .next s

/-! ## ABANDON and UNWIND -/

/-- The bytes written to a descriptor's message. -/
def writtenOf (d : DescId) (s : State) : Nat :=
  match (s.desc d).msg with
  | some m => m.written
  | none => 0

/-- ABANDON taken by the store (R116). -/
def abandonTaken (h : HostId) (id : Nat) (s : State) : State :=
  match (s.stream h).assembling with
  | none => s.reply h id .none []
  | some d =>
    let s := readMapFor d s
    (spaceScan (freeDesc d s)).1.reply h id .ok [word (ownedCells d 0 s), word (writtenOf d s)]

/-- ABANDON (R116). -/
def execAbandon (h : HostId) (s : State) : Host.Outcome State Fault Refusal :=
  match s.takeStoreCommand h .abandon [] with
  | some (id, s) => .next (abandonTaken h id s)
  | none => .next s

/-- An optional descriptor read, the scan after a loss left to the caller. -/
def readOptDesc (d : Option DescId) (s : State) : Bool × State :=
  match d with
  | none => (false, s)
  | some d => readDescCore d s

/-- The caller's open message put back as QUEUED, at the place it already has, with every field kept and the read
position at 0 (R125). -/
def putBackOpen (h : HostId) (s : State) : State :=
  match (s.stream h).openDesc with
  | none => s
  | some d =>
    (s.putDesc d { s.desc d with state := .queued }).setStream h { s.stream h with openDesc := none, readPos := 0 }

/-- UNWIND taken by the store: both descriptors read before either part; a loss answers DAMAGED and leaves the other
(R117). -/
def unwindTaken (h : HostId) (id : Nat) (s : State) : State :=
  let r1 := readOptDesc (s.stream h).assembling s
  let r2 := readOptDesc (s.stream h).openDesc r1.2
  if r1.1 || r2.1 then (spaceScan r2.2).1.reply h id .damaged []
  else
    let s := r2.2
    let opened := if (s.stream h).openDesc.isSome then 1 else 0
    match (s.stream h).assembling with
    | none => (putBackOpen h s).reply h id .ok [word 0, word opened, word 0]
    | some d =>
      let s := readMapFor d s
      (spaceScan (putBackOpen h (freeDesc d s))).1.reply h id .ok [word 1, word opened, word (ownedCells d 0 s)]

/-- UNWIND (R117, R125). -/
def execUnwind (h : HostId) (s : State) : Host.Outcome State Fault Refusal :=
  match s.takeStoreCommand h .unwind [] with
  | some (id, s) => .next (unwindTaken h id s)
  | none => .next s

/-! ## OPEN -/

/-- The reply words of OPEN (R119). -/
def openWords (d : DescId) (x : Descriptor) (m : Message) (a : OpenAnswer) : List Word :=
  [word (x.source.val + 256 * x.session), m.tag, word m.length, optLeaseWord (m.fence.map Prod.fst),
    (m.fence.map Prod.snd).getD 0#16, optLeaseWord a.carried,
    word (m.cls.code + (if a.fenceCurrent then 2 else 0) + (if x.damaged then 4 else 0) + 256 * d.val)]

/-- A head with nothing left to deliver discarded: failed transfer, freed, bounced LOST, and the scan (R163). -/
def discardEmpty (d : DescId) (m : Message) (s : State) : State :=
  let x := s.desc d
  let r := failCarried d m s
  (spaceScan (bounce x m .lost (returnedLease m.carried r.1) (freeDesc d r.2))).1

/-- OPEN of a head whose descriptor was read sound: the lookups of R163, none for a head without a position, then the directory's questions (R120, R159),
then the message OPEN (R119). -/
def openHead (h : HostId) (id : Nat) (d : DescId) (m : Message) (s : State) : State :=
  let s := readMapFor d s
  let positions := List.range (s.desc d).cellCount
  let s := if positions.any fun p => (lookupCell d p s).isNone then markDamaged d s else s
  if 0 < m.length ∧ ∀ p ∈ positions, lookupCell d p s = none then (discardEmpty d m s).reply h id .damaged []
  else
    let r := openQuestion d m s
    let s := r.2
    if r.1.damaged then s.reply h id .damaged []
    else
      let x := s.desc d
      let s := s.putDesc d { x with state := .opened, msg := some { m with carried := r.1.carried } }
      (s.setStream h { s.stream h with openDesc := some d, readPos := 0 }).reply h id .ok (openWords d x m r.1)

/-- OPEN taken by the store (R119). -/
def openTaken (h : HostId) (id : Nat) (s : State) : State :=
  if (s.stream h).openDesc.isSome then s.reply h id .state []
  else match s.queue h with
    | [] => s.reply h id .none []
    | d :: _ =>
      match readDesc d s with
      | (true, s) => s.reply h id .damaged []
      | (false, s) =>
        match (s.desc d).msg with
        | none => s.reply h id .none []
        | some m => openHead h id d m s

/-- OPEN (R119, R120, R122). -/
def execOpen (h : HostId) (s : State) : Host.Outcome State Fault Refusal :=
  match s.takeStoreCommand h .openMessage [] with
  | some (id, s) => .next (openTaken h id s)
  | none => .next s

/-! ## ACCEPT and REFUSE -/

/-- The carried-lease field of an open message cleared (R123, R124, R159). -/
def clearCarried (d : DescId) (m : Message) (s : State) : State :=
  s.putDesc d { s.desc d with msg := some { m with carried := none } }

/-- An accepted message freed, with the scan, and the reply OK (R123). -/
def finishAccept (h : HostId) (id : Nat) (d : DescId) (lease : Option LeaseId) (generation : Word) (value : BitVec 32)
    (waitRemoved : Bool) (s : State) : State :=
  let damaged := (s.desc d).damaged
  (spaceScan (freeDesc d s)).1.reply h id .ok
    [word (if lease.isSome then 1 else 0), optLeaseWord lease, generation, word (if damaged then 1 else 0),
      highWord value, lowWord value, word (if waitRemoved then 1 else 0)]

/-- ACCEPT of an open message whose descriptor was read sound (R123). -/
def acceptMessage (h : HostId) (id : Nat) (d : DescId) (m : Message) (s : State) : State :=
  match m.carried with
  | none => finishAccept h id d none noneWord 0#32 false s
  | some l =>
    match transferAccepted l d h s with
    | (.damaged, s) => (clearCarried d m s).reply h id .damaged []
    | (.gone, s) => finishAccept h id d none noneWord 0#32 false s
    | (.completed g v w, s) => finishAccept h id d (some l) g v w s

/-- A command on the caller's open message: NONE without one, DAMAGED when its read lost the descriptor, and otherwise
the command's own work (R123, R124). -/
def onOpenMessage (h : HostId) (id : Nat) (work : DescId → Message → State → State) (s : State) : State :=
  match (s.stream h).openDesc with
  | none => s.reply h id .none []
  | some d =>
    match readDesc d s with
    | (true, s) => s.reply h id .damaged []
    | (false, s) =>
      match (s.desc d).msg with
      | none => s.reply h id .none []
      | some m => work d m s

/-- ACCEPT (R123, R129). -/
def execAccept (h : HostId) (s : State) : Host.Outcome State Fault Refusal :=
  match s.takeTransferCommand h .accept with
  | some (id, s) => .next (onOpenMessage h id (acceptMessage h id) s)
  | none => .next s

/-- Reply word 1 of REFUSE (R124). -/
def refuseCode : TransferEnd → Nat
  | .damaged | .gone => 0
  | .returned => 1
  | .stranded => 2

/-- Reply word 2 of REFUSE: the carried lease whose transfer failed (R124, log 18). -/
def refusedLease (carried : Option LeaseId) : TransferEnd → Option LeaseId
  | .damaged | .gone => none
  | .returned | .stranded => carried

/-- REFUSE of an open message whose descriptor was read sound (R124). -/
def refuseMessage (h : HostId) (id : Nat) (d : DescId) (m : Message) (s : State) : State :=
  let r := failCarried d m s
  let s := r.2
  if r.1 = .damaged then (clearCarried d m s).reply h id .damaged []
  else
    let x := s.desc d
    let passed := passesFilter x.source x.session s
    let s := bounce x m .refused (returnedLease m.carried r.1) (freeDesc d s)
    (spaceScan s).1.reply h id .ok
      [word (refuseCode r.1), optLeaseWord (refusedLease m.carried r.1), word (if passed then 1 else 0)]

/-- REFUSE (R124, R131). -/
def execRefuse (h : HostId) (s : State) : Host.Outcome State Fault Refusal :=
  match s.takeStoreCommand h .refuse [] with
  | some (id, s) => .next (onOpenMessage h id (refuseMessage h id) s)
  | none => .next s

end Sys2Proof.Machine
end

