-- ==== Sys2Proof/Machine/Departures.lean ====
section
/-! DEFINITION. The directory's, the store's and the notice unit's joins and departures, the port's departure, and the
store's setting changes (R6, R64, R101, R138, R148, R175). -/

namespace Sys2Proof.Machine

open Sys2Proof

/-! ## The directory -/

/-- DIRECTORY_JOIN (R6): the directory counts h as JOINED from now on, in the session announced. A join waits until the
departure before it is finished (R65). -/
def execDirectoryJoin (h : HostId) (s : State) : Host.Outcome State Fault Refusal :=
  match s.dir.path with
  | .join g k :: rest =>
    if g = h ∧ s.dir.departing.get h = none then
      .next { s with dir := { s.dir with path := rest, joined := upd s.dir.joined h (some k) } }
    else .next s
  | _ => .next s

/-- The directory takes h's departure off its path: from now on it counts h as not JOINED, and every lease is still to
be done (R64). None when the next item is not h's departure, or the store has still to take a COMMIT or an ACCEPT that
h gave before it (R115, R133, log 28). -/
def startDeparture (h : HostId) (s : State) : Option State :=
  match s.dir.path with
  | .departure g _ k :: rest =>
    if g = h ∧ transferAhead h k s.store.path = false then
      some { s with dir := { s.dir with
        path := rest
        joined := upd s.dir.joined h none
        departing := upd s.dir.departing h (some ⟨k, allLeases⟩) } }
    else none
  | _ => none

/-- The directory's part of h's departure at one lease that is still to be done; after the last one the departure is
finished (R64). -/
def departLease (h : HostId) (l : LeaseId) (s : State) : State :=
  match s.dir.departing.get h with
  | none => s
  | some p =>
    if l ∈ p.due then
      let due := p.due.filter fun x => x ≠ l
      let s := departAtLease h l s
      { s with dir := { s.dir with
        departing := upd s.dir.departing h (if due = [] then none else some ⟨p.session, due⟩) } }
    else s

/-- DIRECTORY_DEPARTURE (R64): taken as one whole, taken off the path, or done at one lease. -/
def execDirectoryDeparture (h : HostId) (part : DeparturePart) (s : State) : Host.Outcome State Fault Refusal :=
  match part with
  | .start => .next ((startDeparture h s).getD s)
  | .atLease l => .next (departLease h l s)
  | .whole => .next (allLeases.foldl (fun s l => departLease h l s) ((startDeparture h s).getD s))

/-! ## The message store -/

/-- STORE_JOIN (R6): the store counts h as JOINED from now on, in the session announced. -/
def execStoreJoin (h : HostId) (s : State) : Host.Outcome State Fault Refusal :=
  match takeStoreItem s.store.path with
  | some (.join g k, rest) =>
    if g = h then
      .next { s with store := { s.store with path := rest, joined := upd s.store.joined h (some k) } }
    else .next s
  | _ => .next s

/-- A descriptor read and returned to FREE, silently (R101, parts 1 and 2). -/
def freeQuietly (d : DescId) (s : State) : State :=
  match readDescCore d s with
  | (true, s) => s
  | (false, s) => freeDesc d s

/-- One descriptor of a departed host's inbound queue discarded and bounced (R127). -/
def discardOne (s : State) (d : DescId) : State :=
  match readDescCore d s with
  | (true, s) => s
  | (false, s) =>
    let x := s.desc d
    match x.msg with
    | none => freeDesc d s
    | some m =>
      let r := failCarried d m s
      bounce x m .destDeparted (returnedLease m.carried r.1) (freeDesc d r.2)

/-- Part 1 of the store's part of a departure: the space wait or the reservation goes, without a notice (R101). -/
def departSpace (h : HostId) (s : State) : State :=
  match s.space h with
  | .empty => s
  | .waiting .. => (leaveSpaceList h s).setSpace h .empty
  | .reserved d _ => (freeQuietly d s).setSpace h .empty

/-- The store's part of a departure (R101): space, assembling message, inbound queue, and one space scan. R101 has the
host's payload position reset at its port, which holds none (R165, R174); DESIGN CHOICE (log 35): the read position keeps
its number, which nothing shows until the next OPEN sets it to 0. -/
def departStore (h : HostId) (s : State) : State :=
  let s := { s with store := { s.store with joined := upd s.store.joined h none } }
  let s := departSpace h s
  let s := match (s.stream h).assembling with
    | none => s
    | some d => freeQuietly d s
  let s := (s.queue h).foldl discardOne s
  let s := s.setStream h { s.stream h with assembling := none, openDesc := none }
  (spaceScan s).1

/-- STORE_DEPARTURE (R101, R127). -/
def execStoreDeparture (h : HostId) (s : State) : Host.Outcome State Fault Refusal :=
  match takeStoreItem s.store.path with
  | some (.departure g _ _, rest) => if g = h then .next (departStore h (s.setStorePath rest)) else .next s
  | _ => .next s

/-- The store's own value of a setting replaced (R148). -/
def applySetting (x : Setting) (v : Nat) (s : State) : State :=
  { s with store :=
      match x with
      | .descQuota => { s.store with descQuota := v }
      | .cellQuota => { s.store with cellQuota := v }
      | .inboundLimit => { s.store with inboundLimit := v }
      | .tickDiv | .presenceTerm | .spaceHold => s.store }

/-- STORE_SETTING_CHANGE (R148): the oldest change is applied, with a space scan for a quota, and its SET_PARAM
answered (R149). -/
def execStoreSettingChange (s : State) : Host.Outcome State Fault Refusal :=
  match s.store.changes with
  | [] => .next s
  | c :: rest =>
    let s := applySetting c.setting c.value { s with store := { s.store with changes := rest } }
    let s := if c.setting.isQuota then (spaceScan s).1 else s
    .next (s.reply c.host c.id .ok [word c.setting.number, word c.old, word c.value])

/-! ## The notice unit -/

/-- NOTICE_UNIT_JOIN (R138): the notice unit counts h as JOINED from now on, in the session announced. -/
def execNoticeUnitJoin (h : HostId) (s : State) : Host.Outcome State Fault Refusal :=
  match s.notice.path with
  | .join g k :: rest =>
    if g = h then
      .next { s with notice := { s.notice with path := rest, joined := upd s.notice.joined h (some k) } }
    else .next s
  | _ => .next s

/-- NOTICE_UNIT_DEPARTURE (R138): h is no longer counted JOINED, its ring is emptied and its lost count 0. -/
def execNoticeUnitDeparture (h : HostId) (s : State) : Host.Outcome State Fault Refusal :=
  match s.notice.path with
  | .departure g _ _ :: rest =>
    if g = h then
      .next { s with notice := { s.notice with
        path := rest
        joined := upd s.notice.joined h none
        rings := upd s.notice.rings h []
        lost := upd s.notice.lost h 0 } }
    else .next s
  | _ => .next s

/-! ## The port -/

/-- PORT_DEPARTURE (R175): the argument frame is emptied, a standing reply is lost, and a command in flight stays in
flight; overrun, the alert mask and the mode are kept. -/
def execPortDeparture (h : HostId) (s : State) : Host.Outcome State Fault Refusal :=
  match (s.port h).departures with
  | [] => .next s
  | _ :: rest =>
    let p := { s.port h with departures := rest, args := [] }
    let p := if p.replyReady then
        { p with replyReady := false, reply := Vector.replicate 8 0#16, replyPos := 0 }
      else p
    .next (s.setPort h p)

end Sys2Proof.Machine
end

