-- ==== Sys2Proof/Machine/Leases.lean ====
section
/-! DEFINITION. The lease commands CLAIM, RELEASE, DOWNGRADE, WRITE_VALUE, QUERY and REPAIR, each one step of the lease
directory (chapters 2 and 4). -/

namespace Sys2Proof.Machine

open Sys2Proof

/-! ## CLAIM -/

/-- A claim granted: the entry written and the reply OK with the lease, the mode and the generation (R30, R31). -/
def claimGranted (h : HostId) (id : Nat) (l : LeaseId) (m : LeaseMode) (e : LeaseEntry) (s : State) : State :=
  (s.putEntry l e).reply h id .ok [word l.val, word m.code, e.generation]

/-- A claim queued: at the tail of the waiter list with a wait record, and no scan (R44). -/
def claimQueued (h : HostId) (id : Nat) (l : LeaseId) (m : LeaseMode) (wait : Word) (s : State) : State :=
  let e := s.entry l
  let waiters := e.waiters ++ [(h, m)]
  ((s.putEntry l { e with waiters := waiters }).setWait h (some ⟨l, m.waitKind, parseDeadline wait⟩)).reply h id .queued
    [word l.val, word m.code, word waiters.length, word e.state.code, e.generation, deadlineWord (parseDeadline wait)]

/-- A claim that has to wait: refused with this reply when the wait argument is 0, else queued (R30). -/
def claimHeldUp (h : HostId) (id : Nat) (l : LeaseId) (m : LeaseMode) (wait : Word) (st : Status) (ws : List Word)
    (s : State) : State :=
  if wait = 0#16 then s.reply h id st ws else claimQueued h id l m wait s

/-- CLAIM at an entry that was read: the checks of R29, then the table of R30. -/
def claimEntry (h : HostId) (id : Nat) (l : LeaseId) (m : LeaseMode) (wait : Word) (s : State) : State :=
  let e := s.entry l
  if e.sentAway h then s.reply h id .inTransit []
  else if e.heldBy h then s.reply h id .held []
  else if wait ≠ 0#16 ∧ (s.wait h).isSome then s.reply h id .waiting []
  else
    let busy := claimHeldUp h id l m wait .busy [word e.state.code, e.generation] s
    match e.state, m with
    | .free, .shared =>
      claimGranted h id l m { e with state := .shared, holders := HostSet.single h } s
    | .free, .exclusive => claimGranted h id l m (e.enterExclusive h) s
    | .shared, .shared =>
      if e.waiters = [] ∧ e.upgrade = none then
        claimGranted h id l m { e with holders := HostSet.insert e.holders h } s
      else busy
    | .shared, .exclusive => busy
    | .exclusive, _ => busy
    | .stranded, _ =>
      claimHeldUp h id l m wait .stranded [word (causeCode e.cause), optHostWord e.owner, e.generation] s

/-- CLAIM taken by the directory: argument checks, the read, and the claim (R27, R28, R29, R30). -/
def claimTaken (h : HostId) (id : Nat) (lease mode wait : Word) (s : State) : State :=
  match parseLease lease, parseMode mode with
  | some l, some m =>
    match readEntry l s with
    | (true, s) => s.reply h id .damaged []
    | (false, s) => claimEntry h id l m wait s
  | _, _ => s.reply h id .badArg []

/-- CLAIM (R27 to R33, R44). -/
def execClaim (h : HostId) (lease mode wait : Word) (s : State) : Host.Outcome State Fault Refusal :=
  match s.takeDirCommand h .claim [lease, mode, wait] with
  | some (id, s) => .next (claimTaken h id lease mode wait s)
  | none => .next s

/-! ## The other commands that name a lease

Each checks its lease argument, reads the entry, and acts on it (R27, R28). -/

/-- The common opening of a command that names a lease: BAD_ARG for an argument that names none, DAMAGED when the read
rebuilds the entry, and otherwise the command's own work at the entry (R27, R28). -/
def atLease (h : HostId) (id : Nat) (lease : Word) (work : LeaseId → State → State) (s : State) : State :=
  match parseLease lease with
  | none => s.reply h id .badArg []
  | some l =>
    match readEntry l s with
    | (true, s) => s.reply h id .damaged []
    | (false, s) => work l s

/-- RELEASE at an entry that was read (R34, R35, R36): the reply reports the lease after the scan. -/
def releaseEntry (h : HostId) (id : Nat) (l : LeaseId) (s : State) : State :=
  let e := s.entry l
  let done (r : State × Nat) : State :=
    r.1.reply h id .ok [word (r.1.entry l).state.code, (r.1.entry l).generation, word r.2]
  if e.acts h then
    if e.transit.isSome then s.reply h id .inTransit []
    else done (grantScan l (s.putEntry l { e with state := .free, owner := none }))
  else if HostSet.has e.holders h then done (dropHolder l h s)
  else s.reply h id .notHolder []

/-- RELEASE (R34 to R37). -/
def execRelease (h : HostId) (lease : Word) (s : State) : Host.Outcome State Fault Refusal :=
  match s.takeDirCommand h .release [lease] with
  | some (id, s) => .next (atLease h id lease (releaseEntry h id) s)
  | none => .next s

/-- DOWNGRADE at an entry that was read (R38). -/
def downgradeEntry (h : HostId) (id : Nat) (l : LeaseId) (s : State) : State :=
  let e := s.entry l
  if !e.acts h then s.reply h id .notHolder []
  else if e.transit.isSome then s.reply h id .inTransit []
  else
    let r := grantScan l (s.putEntry l { e with state := .shared, owner := none, holders := HostSet.single h })
    r.1.reply h id .ok [e.generation, word r.2]

/-- DOWNGRADE (R38). -/
def execDowngrade (h : HostId) (lease : Word) (s : State) : Host.Outcome State Fault Refusal :=
  match s.takeDirCommand h .downgrade [lease] with
  | some (id, s) => .next (atLease h id lease (downgradeEntry h id) s)
  | none => .next s

/-- WRITE_VALUE at an entry that was read (R39). -/
def writeValueEntry (h : HostId) (id : Nat) (hi lo : Word) (l : LeaseId) (s : State) : State :=
  let e := s.entry l
  if !e.acts h then s.reply h id .notHolder []
  else if e.transit.isSome then s.reply h id .inTransit []
  else (s.putEntry l { e with value := joinWords hi lo }).reply h id .ok [e.generation]

/-- WRITE_VALUE (R39). -/
def execWriteValue (h : HostId) (lease hi lo : Word) (s : State) : Host.Outcome State Fault Refusal :=
  match s.takeDirCommand h .writeValue [lease, hi, lo] with
  | some (id, s) => .next (atLease h id lease (writeValueEntry h id hi lo) s)
  | none => .next s

/-- The summary word of QUERY (R40). -/
def summaryWord (e : LeaseEntry) : Word :=
  word (e.state.code + 4 * causeCode e.cause + 16 * e.holders.toNat + 256 * e.waiters.length
    + (if e.transit.isSome then 2048 else 0) + (if e.transit.isSome && e.ownerPresent then 4096 else 0))

/-- The seven words that QUERY reports of an entry (R40). -/
def queryWords (e : LeaseEntry) : List Word :=
  [summaryWord e, optHostWord e.owner, optHostWord e.upgrade, optHostWord (e.transit.map Transit.recipient),
    e.generation, highWord e.value, lowWord e.value]

/-- QUERY at an entry that was read: it changes nothing (R40). -/
def queryEntry (h : HostId) (id : Nat) (l : LeaseId) (s : State) : State :=
  s.reply h id .ok (queryWords (s.entry l))

/-- QUERY (R40, R41). -/
def execQuery (h : HostId) (lease : Word) (s : State) : Host.Outcome State Fault Refusal :=
  match s.takeDirCommand h .query [lease] with
  | some (id, s) => .next (atLease h id lease (queryEntry h id) s)
  | none => .next s

/-- The host's wait record names the lease. -/
def State.waitsOn (s : State) (h : HostId) (l : LeaseId) : Bool :=
  match s.wait h with
  | some r => decide (r.lease = l)
  | none => false

/-- REPAIR at an entry that was read (R76, R77). -/
def repairEntry (h : HostId) (id : Nat) (l : LeaseId) (s : State) : State :=
  let e := s.entry l
  if e.state = .stranded then
    let waited := s.waitsOn h l
    let e' := { (e.enterExclusive h).dropWaiter h with cause := none }
    let s := s.putEntry l e'
    let s := if waited then s.setWait h none else s
    s.reply h id .ok [word l.val, e'.generation, word (causeCode e.cause), optHostWord e.owner,
      word (if waited then 1 else 0), highWord e.value, lowWord e.value]
  else s.reply h id .notStranded [word e.state.code, e.generation]

/-- REPAIR (R76, R77, R78). -/
def execRepair (h : HostId) (lease : Word) (s : State) : Host.Outcome State Fault Refusal :=
  match s.takeDirCommand h .repair [lease] with
  | some (id, s) => .next (atLease h id lease (repairEntry h id) s)
  | none => .next s

end Sys2Proof.Machine
end

