-- ==== Sys2Proof/Machine/Notices.lean ====
section
/-! DEFINITION. The notice unit: NEXT_NOTICE and the arrival of an offered notice (chapter 8). -/

namespace Sys2Proof.Machine

open Sys2Proof

/-- The words of NEXT_NOTICE for the oldest record, the records left behind it and the lost count (R139). -/
def noticeWords (n : Notice) (left lost : Nat) : List Word :=
  [word (n.kindCode + 256 * left), n.presenceWord] ++ n.fieldWords ++ [word lost]

/-- NEXT_NOTICE taken by the notice unit: the oldest record, if any, is removed, and the lost count reported and
cleared (R139). -/
def nextNoticeTaken (h : HostId) (id : Nat) (s : State) : State :=
  let cleared := { s with notice := { s.notice with lost := upd s.notice.lost h 0 } }
  match s.ring h with
  | [] => cleared.reply h id .none [0#16, 0#16, 0#16, 0#16, 0#16, 0#16, word (s.lost h)]
  | n :: rest =>
    ({ cleared with notice := { cleared.notice with rings := upd s.notice.rings h rest } }).reply h id .ok
      (noticeWords n rest.length (s.lost h))

/-- NEXT_NOTICE (R139, R140). -/
def execNextNotice (h : HostId) (s : State) : Host.Outcome State Fault Refusal :=
  match s.takeNoticeCommand h .nextNotice [] with
  | some (id, s) => .next (nextNoticeTaken h id s)
  | none => .next s

/-- The notice concerns its receiver's own session: its leases, its messages or its space (R138). News of other hosts and
of the part's own objects concerns none. -/
def Notice.ofSession : Notice → Bool
  | .granted .. | .waitExpired .. | .stranded .. | .handed .. | .bounced .. => true
  | .spaceReady .. | .spaceExpired .. | .spaceLapsed .. => true
  | .peerJoined .. | .peerDeparted .. | .fault .. => false

/-- The offered notice concerns a session of h that the notice unit has counted out: neither the one it counts, nor one
whose join is still on its way to it (R138, log 6). -/
def offerEnded (h : HostId) (o : Offer) (s : State) : Bool :=
  match o.session with
  | none => false
  | some k => o.notice.ofSession && decide (s.notice.joined.get h ≠ some k) && decide (PathItem.join h k ∉ s.notice.path)

/-- The notice unit decides an offer by its own count of the host's presence and the ring's length: discarded, entered
or lost (R137). A notice that concerns an ended session is discarded (R138, log 6). -/
def takeOffer (h : HostId) (o : Offer) (s : State) : State :=
  if (s.notice.joined.get h).isNone = true ∨ offerEnded h o s = true then s
  else if (s.ring h).length < Config.ringCapacity then
    { s with notice := { s.notice with rings := upd s.notice.rings h (s.ring h ++ [o.notice]) } }
  else
    { s with notice := { s.notice with lost := upd s.notice.lost h (min Config.lostLimit (s.lost h + 1)) } }

/-- NOTICE_OFFER (R137): the k-th notice on its way to h reaches its ring. Offers reach a ring in no fixed order. -/
def execNoticeOffer (h : HostId) (k : Nat) (s : State) : Host.Outcome State Fault Refusal :=
  match (s.notice.offers.get h)[k]? with
  | none => .next s
  | some o =>
    .next (takeOffer h o
      { s with notice := { s.notice with offers := upd s.notice.offers h ((s.notice.offers.get h).eraseIdx k) } })

end Sys2Proof.Machine
end

