-- ==== Sys2Proof/Machine/Flags.lean ====
section
/-! DEFINITION. Every flag and view of the window, computed from the blocks' state: the alert conditions and ALERTn,
and the words of PSTAT, PCOUNT, AMASK and IDENT (R141, R142, R144, R167, R168). -/

namespace Sys2Proof.Machine

open Sys2Proof

/-- A flag as a number with its bit's weight. -/
def flagBit (b : Bool) (weight : Nat) : Nat := if b then weight else 0

/-- BUSY: a command is in flight whose reply the port will place (R165). -/
def Port.busy (p : Port) : Bool := p.inFlight.isSome

/-- Alert condition N: the ring holds at least one record (R142). -/
def conditionN (s : State) (h : HostId) : Bool := !(s.ring h).isEmpty

/-- Alert condition M: the inbound queue holds a descriptor and none is OPEN (R142). -/
def conditionM (s : State) (h : HostId) : Bool := !(s.queue h).isEmpty && (s.stream h).openDesc.isNone

/-- Alert condition L: the lost count is above 0 (R142). -/
def conditionL (s : State) (h : HostId) : Bool := decide (0 < s.lost h)

/-- ALERTn of the port is driven low: a condition holds whose enable is set (R144). -/
def alertLow (s : State) (h : HostId) : Bool :=
  ((s.port h).mask.n && conditionN s h) || ((s.port h).mask.m && conditionM s h)
    || ((s.port h).mask.l && conditionL s h)

/-- The PSTAT word (R167). R168 leaves open whether the fields of different blocks describe one moment; DESIGN CHOICE
(log 34): all are taken at the moment of the read. -/
def pstatWord (s : State) (h : HostId) : Word :=
  word ((s.record h).state.code + flagBit (s.port h).busy 4 + flagBit (s.port h).replyReady 8
    + flagBit (s.port h).overrun 16 + flagBit (alertLow s h) 32 + flagBit (conditionL s h) 64
    + flagBit (s.stream h).assembling.isSome 128 + flagBit (s.stream h).openDesc.isSome 256)

/-- The PCOUNT word (R167), on the state that the reads of the send window's count leave. -/
def pcountWord (s : State) (h : HostId) : Word :=
  word ((s.queue h).length + 256 * (s.ring h).length + 4096 * sendWindow h s)

/-- The word that a read of AMASK returns (R167, R168). -/
def amaskWord (m : AlertMask) : Word := word (flagBit m.n 1 + flagBit m.m 2 + flagBit m.l 4)

/-- The enables that a write to AMASK sets (R167, R168). -/
def maskOf (w : Word) : AlertMask := ⟨w.getLsbD 0, w.getLsbD 1, w.getLsbD 2⟩

/-- The IDENT word (R167). -/
def identWord (s : State) (h : HostId) : Word :=
  word (h.val + flagBit (decide ((s.port h).mode = .serial)) 4 + 256 * Config.revision)

/-- What the reads that change nothing return (R166, R167, R168): 0 from CMD and ARG, the mask from AMASK, IDENT. They
have no row of the table (log 23); an OFFLINE port answers 0. -/
def quietRead (s : State) (h : HostId) : Loc → Option Word
  | .cmd | .arg => some 0#16
  | .amask => some (if s.offline h then 0#16 else amaskWord (s.port h).mask)
  | .ident => some (if s.offline h then 0#16 else identWord s h)
  | .pstat | .rpl | .pay | .pcount => none

end Sys2Proof.Machine
end

