-- ==== Sys2Proof/Machine/Ports.lean ====
section
/-! DEFINITION. The host ports: window accesses, the arrival of replies, and serial transactions (chapter 11). -/

namespace Sys2Proof.Machine

open Sys2Proof

/-! ## Writes -/

/-- A write access at a location (R166): nothing when the access does not take place or the port is OFFLINE. -/
def windowWrite (h : HostId) (loc : Loc) (act : State → State) (s : State) : State :=
  if s.reaches h false loc && !s.offline h then act s else s

/-- A word written to ARG: appended, or discarded with overrun when the frame holds eight (R169). -/
def appendArg (h : HostId) (w : Word) (s : State) : State :=
  if (s.port h).args.length < Config.frameCapacity then
    s.setPort h { s.port h with args := (s.port h).args ++ [w] }
  else s.setOverrun h

/-- ARG_WRITE (R169). -/
def execArgWrite (h : HostId) (w : Word) (s : State) : Host.Outcome State Fault Refusal :=
  .next (windowWrite h .arg (appendArg h w) s)

/-- A word written to CMD: discarded with overrun while BUSY, else accepted, taking the argument frame (R170). -/
def acceptCommand (h : HostId) (code : Word) (s : State) : State :=
  let p := s.port h
  if p.busy then s.setOverrun h
  else s.setPort h { p with
    args := []
    reply := Vector.replicate 8 0#16
    replyPos := 0
    replyReady := false
    inFlight := some p.nextId
    nextId := p.nextId + 1
    unadmitted := some ⟨h, p.nextId, code, p.args⟩ }

/-- CMD_WRITE (R170). -/
def execCmdWrite (h : HostId) (code : Word) (s : State) : Host.Outcome State Fault Refusal :=
  .next (windowWrite h .cmd (acceptCommand h code) s)

/-- A PAY word passed on along the command path: behind the command that the presence unit has not yet taken, if there
is one, else straight on to the store (R111, R174). -/
def passPayWord (h : HostId) (w : Word) (s : State) : State :=
  if (s.port h).unadmitted.isSome then s.setPort h { s.port h with parked := (s.port h).parked ++ [w] }
  else s.setStorePath (s.store.path ++ [.pay h w])

/-- The store takes the oldest PAY word of h, when no command of h stands before it (R111). -/
def takePay (h : HostId) (s : State) : State :=
  match takePayWord h s.store.path with
  | none => s
  | some (w, rest) => storePayWord h w (s.setStorePath rest)

/-- PAY_WRITE (R110, R111, R174): the host's access, or the store's taking of the word. -/
def execPayWrite (h : HostId) (part : PayWritePart) (s : State) : Host.Outcome State Fault Refusal :=
  match part with
  | .access w => .next (windowWrite h .pay (passPayWord h w) s)
  | .taken => .next (takePay h s)

/-- AMASK_WRITE (R143, R168). -/
def execAmaskWrite (h : HostId) (w : Word) (s : State) : Host.Outcome State Fault Refusal :=
  .next (windowWrite h .amask (fun s => s.setPort h { s.port h with mask := maskOf w }) s)

/-- WINDOW_WRITE_IGNORED (R166): a write to PSTAT, RPL, PCOUNT or IDENT changes nothing. -/
def execWindowWriteIgnored (_h : HostId) (_loc : Loc) (_w : Word) (s : State) : Host.Outcome State Fault Refusal :=
  .next s

/-! ## Reads -/

/-- A read access at a location (R166): nothing when the access does not take place; an OFFLINE port answers 0. -/
def windowRead (h : HostId) (loc : Loc) (act : State → State) (s : State) : State :=
  if s.reaches h true loc then (if s.offline h then s.returnWord h 0#16 else act s) else s

/-- A read of RPL (R171). -/
def readReplyWord (h : HostId) (s : State) : State :=
  let p := s.port h
  if p.busy then s.returnWord h 0#16
  else if p.replyReady then
    if lt : p.replyPos < 8 then
      (s.setPort h { p with replyPos := p.replyPos + 1 }).returnWord h p.reply[p.replyPos]
    else (s.setOverrun h).returnWord h 0#16
  else (s.setOverrun h).returnWord h 0#16

/-- RPL_READ (R171). -/
def execRplRead (h : HostId) (s : State) : Host.Outcome State Fault Refusal :=
  .next (windowRead h .rpl (readReplyWord h) s)

/-- The item is a command or a PAY word of h. -/
def StoreItem.isWorkOf (i : StoreItem) (h : HostId) : Bool :=
  match i with
  | .path p => p.isCommandOf h
  | .pay g _ => decide (g = h)

/-- A command or PAY word of h is still on its way to the store, so a PAY read stands behind it (R174). -/
def payReadWaits (h : HostId) (s : State) : Bool :=
  (s.port h).unadmitted.isSome || !(s.port h).parked.isEmpty || s.store.path.any fun i => i.isWorkOf h

/-- A read of PAY (R174): 0 with overrun while BUSY, and the store's position left; else taken by the store after every
command and PAY access the host has made, and until then nothing is taken (log 21). -/
def readPayWord (h : HostId) (s : State) : State :=
  if (s.port h).busy then (s.setOverrun h).returnWord h 0#16
  else if payReadWaits h s then s
  else (storePayRead h s).2.returnWord h (storePayRead h s).1

/-- PAY_READ (R121, R174). -/
def execPayRead (h : HostId) (s : State) : Host.Outcome State Fault Refusal :=
  .next (windowRead h .pay (readPayWord h) s)

/-- PSTAT_READ (R168): returns the port status, and clears overrun when the word shows it. -/
def execPstatRead (h : HostId) (s : State) : Host.Outcome State Fault Refusal :=
  .next (windowRead h .pstat
    (fun s => (s.setPort h { s.port h with overrun := false }).returnWord h (pstatWord s h)) s)

/-- A read of PCOUNT: the send window of a host the store counts JOINED is a count, which reads the store's objects
(R155, R168, log 14). DESIGN CHOICE (log 34): the fields of the different blocks are taken at this one moment. -/
def readCounts (h : HostId) (s : State) : State :=
  let s := if (s.store.joined.get h).isSome then readForCount s else s
  s.returnWord h (pcountWord s h)

/-- PCOUNT_READ (R168). -/
def execPcountRead (h : HostId) (s : State) : Host.Outcome State Fault Refusal :=
  .next (windowRead h .pcount (readCounts h) s)

/-! ## Replies -/

/-- A reply frame of the reply's words; a word the reply does not define stays 0 (R171). -/
def replyFrame (ws : List Word) : Vector Word 8 := Vector.ofFn fun i => ws.getD i.val 0#16

/-- The port takes a reply: of an orphaned command it is discarded (R176); of the command in flight it is placed, BUSY
clears and REPLY-READY is set (R171). -/
def placeReply (p : Port) (r : Reply) : Port :=
  if r.id ∈ p.orphaned then { p with orphaned := p.orphaned.filter fun i => i ≠ r.id }
  else if p.inFlight = some r.id then
    { p with reply := replyFrame r.words, replyPos := 0, inFlight := none, replyReady := true }
  else p

/-- REPLY_ARRIVAL (R171, R176): the k-th reply on its way to port h arrives. The reply of a LEAVE stays behind the
departure at the port (R175). -/
def execReplyArrival (h : HostId) (k : Nat) (s : State) : Host.Outcome State Fault Refusal :=
  match (s.port h).replies[k]? with
  | none => .next s
  | some r =>
    if r.afterLeave = true ∧ .left ∈ (s.port h).departures then .next s
    else .next (s.setPort h (placeReply { s.port h with replies := (s.port h).replies.eraseIdx k } r))

/-! ## Serial transactions (R179) -/

/-- SERIAL_TRANSACTION_BEGIN (R179): the header byte is awaited. A PARALLEL port has no SSELn. -/
def execSerialTransactionBegin (h : HostId) (s : State) : Host.Outcome State Fault Refusal :=
  if (s.port h).mode = .serial ∧ (s.port h).serial = .idle then
    .next (s.setPort h { s.port h with serial := .header })
  else .next s

/-- What the port does after a header byte (R179). -/
def headerPhase (header : Byte) : SerialPhase :=
  match decodeHeader header with
  | some (read, loc) => .data read loc
  | none => .ignoring

/-- The read of one data word of a read transaction at a location whose reads change nothing, taken at the falling edge
that drives its first bit (R166, R179). At a location with a row of its own this changes nothing. -/
def readQuietWord (h : HostId) (s : State) : State :=
  match (s.port h).mode, (s.port h).serial with
  | .serial, .data true loc =>
    match quietRead s h loc with
    | some w => s.returnWord h w
    | none => s
  | _, _ => s

/-- HEADER_BYTE (R179): direction and location selected, or the rest of the transaction ignored; the header itself takes
no access. Its other form reads a data word of CMD, ARG, AMASK or IDENT, which has no row (log 23). -/
def execHeaderByte (h : HostId) (part : HeaderPart) (s : State) : Host.Outcome State Fault Refusal :=
  match part with
  | .byte header =>
    if (s.port h).mode = .serial ∧ (s.port h).serial = .header then
      .next (s.setPort h { s.port h with serial := headerPhase header })
    else .next s
  | .quietWord => .next (readQuietWord h s)

/-- SERIAL_TRANSACTION_END (R179): the bits of a write word cut short have no effect, and SDO is released. -/
def execSerialTransactionEnd (h : HostId) (_cutBits : List Bool) (s : State) : Host.Outcome State Fault Refusal :=
  if (s.port h).mode = .serial then .next (s.setPort h { s.port h with serial := .idle, sdoDriven := false })
  else .next s

end Sys2Proof.Machine
end

