-- ==== Sys2Proof/Machine/Presence.lean ====
section
/-! DEFINITION. The presence unit: admission of commands, JOIN, LEAVE, RENEW, STATUS, EVICT, unknown codes, and the
expiry of a term (chapter 1). -/

namespace Sys2Proof.Machine

open Sys2Proof

/-! ## Admission (R4) -/

/-- The block that takes a command (00_scope, "Block diagram"). -/
inductive Owner
  | presenceUnit | directory | store | noticeUnit | settings
  deriving DecidableEq, Repr

/-- The owning block of each command (R173 with the chapters). -/
def commandOwner : CommandKind → Owner
  | .join | .leave | .renew | .status | .evict => .presenceUnit
  | .claim | .release | .upgrade | .downgrade | .cancelWait | .repair | .query | .writeValue => .directory
  | .spaceWait | .spaceCancel | .beginMessage | .commit | .abandon | .openMessage | .accept | .refuse | .unwind => .store
  | .nextNotice => .noticeUnit
  | .setParam | .readParam | .deviceStatus | .clearCounts => .settings

/-- What admission does with a command: refused with a status, or taken or passed on to its owner. -/
inductive Verdict
  | refuse (st : Status)
  | pass (owner : Owner)
  deriving DecidableEq, Repr

/-- A command that only a JOINED host may give (R4). -/
def joinedOnly (st : PresenceState) (owner : Owner) : Verdict :=
  match st with
  | .joined => .pass owner
  | .fenced => .refuse .fenced
  | .unjoined | .offline => .refuse .notJoined

/-- The table of R4. -/
def admission (k : Option CommandKind) (st : PresenceState) : Verdict :=
  match k with
  | none => if st = .joined then .refuse .badArg else joinedOnly st .presenceUnit
  | some .join => if st = .joined then .refuse .already else .pass .presenceUnit
  | some .status => .pass .presenceUnit
  | some .readParam => .pass .settings
  | some .deviceStatus => .pass .settings
  | some k => joinedOnly st (commandOwner k)

/-- A command passed on at the tail of its owner's path (R6); the presence unit's own are not passed. -/
def State.passCommand (s : State) (c : Command) : Owner → State
  | .presenceUnit => s
  | .directory => s.setDirPath (s.dir.path ++ [.command c])
  | .store => s.setStorePath (s.store.path ++ [.path (.command c)])
  | .noticeUnit => s.setNoticePath (s.notice.path ++ [.command c])
  | .settings => s.setSettingsPath (s.settings.path ++ [.command c])

/-- A command of the presence unit's own at its admission: an EVICT stays at the presence unit for its charter check
(R80, log 33), any other for its own row (log 31). Given the state before the command is taken off the port, and the
state after. -/
def keepOwnCommand (h : HostId) (c : Command) (s t : State) : State :=
  if decodeCommand c.code = some .evict ∧ (s.presence.evicting.get h).isNone
  then (t.setEvicting h (some c)).passParked h else s

/-- COMMAND_ADMISSION (R4, R5, R6): the command at port h is refused with its status word alone, passed on to its owner,
or kept as the presence unit's own. -/
def execCommandAdmission (h : HostId) (s : State) : Host.Outcome State Fault Refusal :=
  match s.takeFromPort h fun _ => true with
  | none => .next s
  | some (c, t) =>
    match admission (decodeCommand c.code) (s.record h).state with
    | .refuse st => .next ((t.passParked h).reply h c.id st [])
    | .pass .presenceUnit => .next (keepOwnCommand h c s t)
    | .pass owner => .next ((t.passCommand c owner).passParked h)

/-! ## The presence commands -/

/-- The session after a join: raised by one, and from 255 to 1 (R3). -/
def nextSession (n : Nat) : Nat := if n < Config.sessionLimit then n + 1 else 1

/-- The presence unit's work at a JOIN that is taken (R7). -/
def joinTaken (h : HostId) (id : Nat) (s : State) : State :=
  let session := nextSession (s.record h).session
  let s := s.setRecord h ⟨.joined, session, some s.settings.presenceTerm, none⟩
  let s := s.announce (.join h session)
  let s := s.offerPeers h (.peerJoined h session)
  s.reply h id .ok [word h.val, word session, word s.settings.presenceTerm]

/-- JOIN (R7): taken in UNJOINED and FENCED, refused ALREADY in JOINED. -/
def execJoin (h : HostId) (s : State) : Host.Outcome State Fault Refusal :=
  match s.takePresenceCommand h .join [] with
  | none => .next s
  | some (id, t) =>
    match admission (some .join) (s.record h).state with
    | .refuse st => .next (t.reply h id st [])
    | .pass _ => .next (joinTaken h id t)

/-- LEAVE (R10): the departure is raised with cause LEFT, and delivered to the port before the reply (R175). -/
def execLeave (h : HostId) (s : State) : Host.Outcome State Fault Refusal :=
  match s.takePresenceCommand h .leave [] with
  | none => .next s
  | some (id, t) =>
    match admission (some .leave) (s.record h).state with
    | .refuse st => .next (t.reply h id st [])
    | .pass _ =>
      .next ((t.raiseDeparture h .left .unjoined none).sendReply h
        ⟨id, [Status.ok.code, word (t.record h).session], true⟩)

/-- RENEW (R8). -/
def execRenew (h : HostId) (s : State) : Host.Outcome State Fault Refusal :=
  match s.takePresenceCommand h .renew [] with
  | none => .next s
  | some (id, t) =>
    match admission (some .renew) (s.record h).state with
    | .refuse st => .next (t.reply h id st [])
    | .pass _ => .next (t.reply h id .ok [word t.settings.presenceTerm])

/-- The words of STATUS after the reload of R5: the term is reported in JOINED only (R9). -/
def statusWords (h : HostId) (r : PresenceRecord) : List Word :=
  [word h.val, word r.state.code, word r.session,
    if r.state = .joined then word (r.term.getD 0) else 0#16, fenceWord r.fence]

/-- STATUS (R9). -/
def execStatus (h : HostId) (s : State) : Host.Outcome State Fault Refusal :=
  match s.takePresenceCommand h .status [] with
  | none => .next s
  | some (id, t) => .next (t.reply h id .ok (statusWords h (t.record h)))

/-- EVICT admitted from a JOINED host, whatever the host is by now (R80): the charter check, the target's check, and
the eviction (R11). -/
def evictTaken (h : HostId) (id : Nat) (target : Word) (s : State) : State :=
  match charterCheck h s with
  | (.damaged, s) => s.reply h id .damaged []
  | (.fail, s) => s.reply h id .charter []
  | (.pass, s) =>
    match parseHost target with
    | none => s.reply h id .badArg []
    | some g =>
      if g = h ∨ (s.record g).state ≠ .joined then s.reply h id .badArg []
      else (s.raiseDeparture g .evicted .fenced (some .evicted)).reply h id .ok
        [word g.val, word (s.record g).session]

/-- EVICT (R11, R12, R80): its check and its effect, on the EVICT of h that was admitted before, or together with its
admission from the port. -/
def execEvict (h : HostId) (target : Word) (s : State) : Host.Outcome State Fault Refusal :=
  match s.takeAdmittedEvict h target with
  | some (id, t) => .next (evictTaken h id target t)
  | none =>
    match s.takePresenceCommand h .evict [target] with
    | none => .next s
    | some (id, t) =>
      match admission (some .evict) (s.record h).state with
      | .refuse st => .next (t.reply h id st [])
      | .pass _ => .next (evictTaken h id target t)

/-- UNKNOWN_COMMAND_CODE (R4): refused NOT_JOINED, BAD_ARG or FENCED by the host's state; a JOINED host's term is
reloaded (R5). -/
def execUnknownCommandCode (h : HostId) (code : Word) (s : State) : Host.Outcome State Fault Refusal :=
  match s.takeFromPort h fun c => decide (c.code = code) && (decodeCommand code).isNone with
  | none => .next s
  | some (c, t) =>
    match admission none (s.record h).state with
    | .refuse st => .next ((t.passParked h).reply h c.id st [])
    | .pass _ => .next s

/-! ## The expiry of a term -/

/-- TERM_EXPIRY (R14): due when a tick has lowered the term of a JOINED host to 0; the host is FENCED with cause LAPSED
and its departure raised. -/
def execTermExpiry (h : HostId) (s : State) : Host.Outcome State Fault Refusal :=
  if (s.record h).state = .joined ∧ (s.record h).term = some 0 then
    .next (s.raiseDeparture h .lapsed .fenced (some .lapsed))
  else .next s

end Sys2Proof.Machine
end

