-- ==== Sys2Proof/Machine/Resets.lean ====
section
/-! DEFINITION. PRSTn and RESETn (R18, R19, R176, R177). -/

namespace Sys2Proof.Machine

open Sys2Proof

/-- The items of the store's path less the PAY words of a host: withdrawn by its port reset (R176). -/
def withdrawPay (h : HostId) (p : List StoreItem) : List StoreItem :=
  p.filter fun i =>
    match i with
    | .pay g _ => g ≠ h
    | .path _ => true

/-- The port at the assertion of PRSTn (R176): a command not yet taken is withdrawn, one taken and in flight becomes
orphaned, the window is cleared, and the mode is kept. -/
def Port.portReset (p : Port) : Port :=
  { p with
    args := []
    reply := Vector.replicate 8 0#16
    replyPos := 0
    inFlight := none
    replyReady := false
    overrun := false
    mask := ⟨false, false, false⟩
    orphaned := match p.inFlight, p.unadmitted with
      | some id, none => p.orphaned ++ [id]
      | _, _ => p.orphaned
    unadmitted := none
    parked := [] }

/-- The presence unit at the assertion of PRSTn (R18): from JOINED the departure is raised with cause PORT_RESET; from
FENCED the fence cause is cleared; the host is OFFLINE and keeps its session. -/
def presenceReset (h : HostId) (s : State) : State :=
  match (s.record h).state with
  | .joined => s.raiseDeparture h .portReset .offline none
  | .unjoined | .fenced | .offline => s.setRecord h ⟨.offline, (s.record h).session, none, none⟩

/-- The assertion of PRSTn at a port whose host is not held OFFLINE already (R18, R176). -/
def portReset (h : HostId) (s : State) : State :=
  let s := presenceReset h s
  let s := s.setPort h (s.port h).portReset
  s.setStorePath (withdrawPay h s.store.path)

/-- PRSTN_ASSERT (R18, R176). While RESETn is held the host is OFFLINE already and only the pin is low. -/
def execPrstnAssert (h : HostId) (s : State) : Host.Outcome State Fault Refusal :=
  if (s.port h).prstn then .next s
  else
    let t := s.setPort h { s.port h with prstn := true }
    .next (if s.resetn then t else portReset h t)

/-- PRSTN_RELEASE (R18): with RESETn not asserted the host becomes UNJOINED. -/
def execPrstnRelease (h : HostId) (s : State) : Host.Outcome State Fault Refusal :=
  if (s.port h).prstn then
    let t := s.setPort h { s.port h with prstn := false }
    .next (if s.resetn then t else t.setRecord h { t.record h with state := .unjoined })
  else .next s

/-- A port at the assertion of RESETn: every value of device reset, the mode kept until it is latched anew, and the
PRSTn pin as it is (R165, R177, log 4). -/
def Port.deviceReset (p : Port) : Port := { Port.reset with mode := p.mode, prstn := p.prstn }

/-- RESETN_ASSERT (R19, R25, R91, R136, R147, R165): every block takes its values of device reset at once; nothing in
flight remains; no departure is raised and no notice offered. The queue of waiting commands is no part of the part. -/
def execResetnAssert (s : State) : Host.Outcome State Fault Refusal :=
  .next { State.reset with ports := s.ports.map Port.deviceReset, pending := s.pending }

/-- The mode that the level of a MODE pin straps: high is SERIAL (R177). -/
def modeOfPin (high : Bool) : PortMode := if high then .serial else .parallel

/-- RESETN_RELEASE (R19, R177): each port latches its mode, and each host whose PRSTn is not asserted becomes UNJOINED.
The time base runs from here on (R146). The spec is silent on a serial transaction begun while RESETn was held; DESIGN
CHOICE (log 22): its phase and SDO stay as they are, whatever mode is latched. -/
def execResetnRelease (modePins : PerHost Bool) (s : State) : Host.Outcome State Fault Refusal :=
  if s.resetn then
    .next { s with
      resetn := false
      ports := Vector.ofFn fun h => { s.port h with mode := modeOfPin (modePins.get h) }
      presence := { s.presence with records := Vector.ofFn fun h =>
        if (s.port h).prstn then s.record h else { s.record h with state := .unjoined } } }
  else .next s

end Sys2Proof.Machine
end

