-- ==== Sys2Proof/Machine/Settings.lean ====
section
/-! DEFINITION. The settings block: SET_PARAM, READ_PARAM, DEVICE_STATUS, CLEAR_COUNTS and the counting of findings
(chapter 9). -/

namespace Sys2Proof.Machine

open Sys2Proof

/-- A setting changed (R148): recorded; a change of setting 2, 3 or 4 is handed to the store, which answers the
SET_PARAM when it takes the change, and any other is complete and answered at once. -/
def changeSetting (h : HostId) (id : Nat) (x : Setting) (v : Nat) (s : State) : State :=
  let old := s.setting x
  let s := s.setSetting x v
  if x.actsAtStore then
    { s with store := { s.store with changes := s.store.changes ++ [⟨x, old, v, h, id⟩] } }
  else s.reply h id .ok [word x.number, word old, word v]

/-- SET_PARAM taken by the settings block: the charter check, the id and the range, in this order (R149). -/
def setParamTaken (h : HostId) (id : Nat) (param value : Word) (s : State) : State :=
  match charterCheck h s with
  | (.damaged, s) => s.reply h id .damaged []
  | (.fail, s) => s.reply h id .charter []
  | (.pass, s) =>
    match parseSetting param with
    | none => s.reply h id .badArg []
    | some x =>
      if value.toNat < x.low ∨ x.high < value.toNat then s.reply h id .badArg []
      else changeSetting h id x value.toNat s

/-- SET_PARAM (R148, R149, R150). -/
def execSetParam (h : HostId) (param value : Word) (s : State) : Host.Outcome State Fault Refusal :=
  match s.takeSettingsCommand h .setParam [param, value] with
  | some (id, s) => .next (setParamTaken h id param value s)
  | none => .next s

/-- READ_PARAM taken by the settings block (R151). -/
def readParamTaken (h : HostId) (id : Nat) (param : Word) (s : State) : State :=
  match parseSetting param with
  | none => s.reply h id .badArg []
  | some x => s.reply h id .ok [word x.number, word (s.setting x), word x.low, word x.high, word x.default]

/-- READ_PARAM (R151). -/
def execReadParam (h : HostId) (param : Word) (s : State) : Host.Outcome State Fault Refusal :=
  match s.takeSettingsCommand h .readParam [param] with
  | some (id, s) => .next (readParamTaken h id param s)
  | none => .next s

/-- The joined host set of DEVICE_STATUS, from the presence records (R152). -/
def joinedSet (s : State) : Nat :=
  (allHosts.map fun h => if (s.record h).state = .joined then 2 ^ h.val else 0).sum

/-- The words of DEVICE_STATUS (R152). -/
def deviceStatusWords (s : State) : List Word :=
  [word (freeCells s), word (freeDescs s), word (retiredCells s), word s.settings.corrected,
    word s.settings.uncorrected, word (joinedSet s), word Config.revision]

/-- DEVICE_STATUS (R152): the store's counts read the cell map through the check logic (R155, log 14). R152 leaves open
whether the words of different owners describe one moment; DESIGN CHOICE (log 34): all seven are taken at one moment, and
a finding of this step's own reads, which is counted as an event of its own (R156, R157), is not yet in words 4 and 5. -/
def execDeviceStatus (h : HostId) (s : State) : Host.Outcome State Fault Refusal :=
  match s.takeSettingsCommand h .deviceStatus [] with
  | some (id, s) => .next ((readMap s).reply h id .ok (deviceStatusWords (readMap s)))
  | none => .next s

/-- CLEAR_COUNTS taken by the settings block: after the charter check, both counts reported and cleared (R154). DESIGN
CHOICE (log 36): an error that this charter check itself corrects in L0 is counted as an event of its own after the clear,
where R154 would let it come before as well. -/
def clearCountsTaken (h : HostId) (id : Nat) (s : State) : State :=
  match charterCheck h s with
  | (.damaged, s) => s.reply h id .damaged []
  | (.fail, s) => s.reply h id .charter []
  | (.pass, s) =>
    ({ s with settings := { s.settings with corrected := 0, uncorrected := 0 } }).reply h id .ok
      [word s.settings.corrected, word s.settings.uncorrected]

/-- CLEAR_COUNTS (R154). -/
def execClearCounts (h : HostId) (s : State) : Host.Outcome State Fault Refusal :=
  match s.takeSettingsCommand h .clearCounts [] with
  | some (id, s) => .next (clearCountsTaken h id s)
  | none => .next s

/-- CORRECTED_COUNT (R153, R156): one corrected error counted, as an event of its own. -/
def execCorrectedCount (s : State) : Host.Outcome State Fault Refusal :=
  match s.settings.correctedDue with
  | 0 => .next s
  | n + 1 => .next { s with settings := { s.settings with
      correctedDue := n, corrected := min Config.correctedLimit (s.settings.corrected + 1) } }

/-- UNCORRECTED_COUNT (R153, R157): one uncorrectable finding counted, as an event of its own. -/
def execUncorrectedCount (s : State) : Host.Outcome State Fault Refusal :=
  match s.settings.uncorrectedDue with
  | 0 => .next s
  | n + 1 => .next { s with settings := { s.settings with
      uncorrectedDue := n, uncorrected := min Config.uncorrectedLimit (s.settings.uncorrected + 1) } }

end Sys2Proof.Machine
end

