-- ==== Sys2Proof/Machine/Ticks.lean ====
section
/-! DEFINITION. The time base and the ticks at the three blocks that run timers (R13, R45, R96, R97, R146). -/

namespace Sys2Proof.Machine

open Sys2Proof

/-- Periods of CLKIN pass at the time base: the count after them, the divider then in force, and the ticks produced. The
first tick ends the period running on the divider in force; every period after it runs to TICK_DIV (R146). -/
def TimeBase.advance (t : TimeBase) (tickDiv periods : Nat) : TimeBase × Nat :=
  if t.count + periods < t.divider then (⟨t.count + periods, t.divider⟩, 0)
  else
    let rest := t.count + periods - t.divider
    (⟨rest % tickDiv, tickDiv⟩, rest / tickDiv + 1)

/-- Periods of CLKIN: each tick produced is delivered to the presence unit, the directory and the store (R146). While
RESETn is held the count stays at 0. -/
def clkinPeriods (periods : Nat) (s : State) : State :=
  if s.resetn then s
  else
    let r := s.timeBase.advance s.settings.tickDiv periods
    { s with
      timeBase := r.1
      presence := { s.presence with ticks := s.presence.ticks + r.2 }
      dir := { s.dir with ticks := s.dir.ticks + r.2 }
      store := { s.store with ticks := s.store.ticks + r.2 } }

/-- A running count of ticks lowered by one. -/
def lower (t : Option Nat) : Option Nat := t.map fun n => n - 1

/-- A record's term at a tick: lowered in JOINED only (R13). -/
def PresenceRecord.tick (r : PresenceRecord) : PresenceRecord :=
  if r.state = .joined then { r with term := lower r.term } else r

/-- A wait record at a tick (R45). -/
def WaitRecord.tick (r : WaitRecord) : WaitRecord := { r with ticks := lower r.ticks }

/-- A space record at a tick (R96, R97). -/
def SpaceRecord.tick : SpaceRecord → SpaceRecord
  | .empty => .empty
  | .waiting n t => .waiting n (lower t)
  | .reserved d k => .reserved d (k - 1)

/-- An expiry of a term is due and not yet taken (R14, log 9). -/
def termDue (s : State) : Bool := allHosts.any fun h => (s.record h).state = .joined ∧ (s.record h).term = some 0

/-- An expiry of a lease wait is due and not yet taken (R45, log 9). -/
def waitDue (s : State) : Bool :=
  allHosts.any fun h =>
    match s.wait h with
    | some r => decide (r.ticks = some 0)
    | none => false

/-- A space record whose wait expires or whose reservation lapses at the last tick (R96, R97). -/
def SpaceRecord.isDue : SpaceRecord → Bool
  | .empty => false
  | .waiting _ t => decide (t = some 0)
  | .reserved _ k => decide (k = 0)

/-- An expiry or a lapse is due at the store and not yet taken (R96, R97, log 9). -/
def spaceDue (s : State) : Bool := allHosts.any fun h => (s.space h).isDue

/-- The presence unit takes a delivered tick: every running term is lowered by one (R13). The expiries of the tick
before come first (log 9). -/
def presenceTick (s : State) : State :=
  if s.presence.ticks = 0 ∨ termDue s then s
  else { s with presence := { s.presence with
    records := s.presence.records.map PresenceRecord.tick
    ticks := s.presence.ticks - 1 } }

/-- The directory takes a delivered tick: every wait record with a deadline is lowered by one (R45). -/
def directoryTick (s : State) : State :=
  if s.dir.ticks = 0 ∨ waitDue s then s
  else { s with dir := { s.dir with
    waits := s.dir.waits.map fun r => r.map WaitRecord.tick
    ticks := s.dir.ticks - 1 } }

/-- The store takes a delivered tick: every space wait with a deadline and every hold is lowered by one (R96, R97). -/
def storeTick (s : State) : State :=
  if s.store.ticks = 0 ∨ spaceDue s then s
  else { s with store := { s.store with
    space := s.store.space.map SpaceRecord.tick
    ticks := s.store.ticks - 1 } }

/-- TICK (R146). -/
def execTick (part : TickPart) (s : State) : Host.Outcome State Fault Refusal :=
  match part with
  | .clkin periods => .next (clkinPeriods periods s)
  | .presenceUnit => .next (presenceTick s)
  | .directory => .next (directoryTick s)
  | .store => .next (storeTick s)

end Sys2Proof.Machine
end

