-- ==== Sys2Proof/Machine/Waits.lean ====
section
/-! DEFINITION. UPGRADE, CANCEL_WAIT, and the expiries of lease waits, each one step of the lease directory
(chapter 3). -/

namespace Sys2Proof.Machine

open Sys2Proof

/-- UPGRADE at an entry that was read: the checks of R49 in order, then R50 or R51. -/
def upgradeEntry (h : HostId) (id : Nat) (wait : Word) (l : LeaseId) (s : State) : State :=
  let e := s.entry l
  let others := HostSet.size (HostSet.erase e.holders h)
  if e.sentAway h then s.reply h id .inTransit []
  else if e.acts h then s.reply h id .held []
  else if !HostSet.has e.holders h then s.reply h id .notHolder []
  else if e.holders = HostSet.single h then
    let e' := e.enterExclusive h
    (s.putEntry l e').reply h id .ok [word l.val, word LeaseMode.exclusive.code, e'.generation]
  else match e.upgrade.filter fun u => u ≠ h with
    | some u => s.reply h id .conflict [word u.val]
    | none =>
      if wait = 0#16 then s.reply h id .busy [word others, e.generation]
      else if (s.wait h).isSome then s.reply h id .waiting []
      else
        ((s.putEntry l { e with upgrade := some h }).setWait h (some ⟨l, .upgrade, parseDeadline wait⟩)).reply h id
          .queued [word l.val, word WaitKind.upgrade.code, word others, word e.state.code, e.generation,
            deadlineWord (parseDeadline wait)]

/-- UPGRADE (R49 to R54). -/
def execUpgrade (h : HostId) (lease wait : Word) (s : State) : Host.Outcome State Fault Refusal :=
  match s.takeDirCommand h .upgrade [lease, wait] with
  | some (id, s) => .next (atLease h id lease (upgradeEntry h id wait) s)
  | none => .next s

/-- A wait record's end without a grant: the claim wait or the pending upgrade removed, the record emptied, and the
scan that follows (R46, R47, R53). -/
def endWait (h : HostId) (r : WaitRecord) (s : State) : State × Nat :=
  match r.kind with
  | .upgrade => dropUpgrade r.lease h s
  | .claimShared | .claimExclusive => dropClaimWait r.lease h s

/-- CANCEL_WAIT taken by the directory (R47). -/
def cancelWaitTaken (h : HostId) (id : Nat) (s : State) : State :=
  match s.wait h with
  | none => s.reply h id .none []
  | some r =>
    match readEntry r.lease s with
    | (true, s) => s.reply h id .damaged []
    | (false, s) =>
      let x := endWait h r s
      x.1.reply h id .ok [word r.lease.val, word r.kind.code, word x.2]

/-- CANCEL_WAIT (R47, R48). -/
def execCancelWait (h : HostId) (s : State) : Host.Outcome State Fault Refusal :=
  match s.takeDirCommand h .cancelWait [] with
  | some (id, s) => .next (cancelWaitTaken h id s)
  | none => .next s

/-- The expiry of a wait taken at its lease: WAIT_EXPIRED is offered with the wait's end. A read that finds the entry
uncorrectable rebuilds it and ends the wait with STRANDED instead (R46, R53, R158). -/
def expireWait (h : HostId) (r : WaitRecord) (s : State) : State :=
  match readEntry r.lease s with
  | (true, s) => s
  | (false, s) => (endWait h r (s.offerDir h (.waitExpired r.lease r.kind))).1

/-- CLAIM_WAIT_EXPIRY (R46): due when a tick has lowered the deadline of h's claim wait to 0 (R45). -/
def execClaimWaitExpiry (h : HostId) (s : State) : Host.Outcome State Fault Refusal :=
  match s.wait h with
  | some r => if r.ticks = some 0 ∧ r.kind ≠ .upgrade then .next (expireWait h r s) else .next s
  | none => .next s

/-- UPGRADE_WAIT_EXPIRY (R53): due when a tick has lowered the deadline of h's pending upgrade to 0 (R45). -/
def execUpgradeWaitExpiry (h : HostId) (s : State) : Host.Outcome State Fault Refusal :=
  match s.wait h with
  | some r => if r.ticks = some 0 ∧ r.kind = .upgrade then .next (expireWait h r s) else .next s
  | none => .next s

end Sys2Proof.Machine
end

