-- ==== Sys2Proof/Machine/Dispatch.lean ====
section
/-! DEFINITION. One arm for each row of spec/opcode_table.json: the row's meaning. -/

namespace Sys2Proof.Machine

open Sys2Proof

def exec (i : Instr) (s : State) : Host.Outcome State Fault Refusal :=
  match i with
  | .join h => Sys2Proof.Machine.execJoin h s
  | .leave h => Sys2Proof.Machine.execLeave h s
  | .renew h => Sys2Proof.Machine.execRenew h s
  | .status h => Sys2Proof.Machine.execStatus h s
  | .evict h target => Sys2Proof.Machine.execEvict h target s
  | .unknownCommandCode h code => Sys2Proof.Machine.execUnknownCommandCode h code s
  | .claim h lease mode wait => Sys2Proof.Machine.execClaim h lease mode wait s
  | .release h lease => Sys2Proof.Machine.execRelease h lease s
  | .upgrade h lease wait => Sys2Proof.Machine.execUpgrade h lease wait s
  | .downgrade h lease => Sys2Proof.Machine.execDowngrade h lease s
  | .cancelWait h => Sys2Proof.Machine.execCancelWait h s
  | .repair h lease => Sys2Proof.Machine.execRepair h lease s
  | .query h lease => Sys2Proof.Machine.execQuery h lease s
  | .writeValue h lease hi lo => Sys2Proof.Machine.execWriteValue h lease hi lo s
  | .spaceWait h cells wait => Sys2Proof.Machine.execSpaceWait h cells wait s
  | .spaceCancel h => Sys2Proof.Machine.execSpaceCancel h s
  | .beginMessage h dest length cls tag fenceLease fenceGen carried => Sys2Proof.Machine.execBegin h dest length cls tag fenceLease fenceGen carried s
  | .commit h => Sys2Proof.Machine.execCommit h s
  | .abandon h => Sys2Proof.Machine.execAbandon h s
  | .unwind h => Sys2Proof.Machine.execUnwind h s
  | .openMessage h => Sys2Proof.Machine.execOpen h s
  | .accept h => Sys2Proof.Machine.execAccept h s
  | .refuse h => Sys2Proof.Machine.execRefuse h s
  | .nextNotice h => Sys2Proof.Machine.execNextNotice h s
  | .setParam h param value => Sys2Proof.Machine.execSetParam h param value s
  | .readParam h param => Sys2Proof.Machine.execReadParam h param s
  | .deviceStatus h => Sys2Proof.Machine.execDeviceStatus h s
  | .clearCounts h => Sys2Proof.Machine.execClearCounts h s
  | .replyArrival h k => Sys2Proof.Machine.execReplyArrival h k s
  | .argWrite h w => Sys2Proof.Machine.execArgWrite h w s
  | .rplRead h => Sys2Proof.Machine.execRplRead h s
  | .payWrite h part => Sys2Proof.Machine.execPayWrite h part s
  | .payRead h => Sys2Proof.Machine.execPayRead h s
  | .pstatRead h => Sys2Proof.Machine.execPstatRead h s
  | .pcountRead h => Sys2Proof.Machine.execPcountRead h s
  | .amaskWrite h w => Sys2Proof.Machine.execAmaskWrite h w s
  | .windowWriteIgnored h loc w => Sys2Proof.Machine.execWindowWriteIgnored h loc w s
  | .prstnAssert h => Sys2Proof.Machine.execPrstnAssert h s
  | .prstnRelease h => Sys2Proof.Machine.execPrstnRelease h s
  | .resetnAssert => Sys2Proof.Machine.execResetnAssert s
  | .resetnRelease modePins => Sys2Proof.Machine.execResetnRelease modePins s
  | .tick part => Sys2Proof.Machine.execTick part s
  | .termExpiry h => Sys2Proof.Machine.execTermExpiry h s
  | .claimWaitExpiry h => Sys2Proof.Machine.execClaimWaitExpiry h s
  | .upgradeWaitExpiry h => Sys2Proof.Machine.execUpgradeWaitExpiry h s
  | .spaceWaitExpiry h => Sys2Proof.Machine.execSpaceWaitExpiry h s
  | .reservationLapse h => Sys2Proof.Machine.execReservationLapse h s
  | .directoryJoin h => Sys2Proof.Machine.execDirectoryJoin h s
  | .storeJoin h => Sys2Proof.Machine.execStoreJoin h s
  | .noticeUnitJoin h => Sys2Proof.Machine.execNoticeUnitJoin h s
  | .directoryDeparture h part => Sys2Proof.Machine.execDirectoryDeparture h part s
  | .storeDeparture h => Sys2Proof.Machine.execStoreDeparture h s
  | .noticeUnitDeparture h => Sys2Proof.Machine.execNoticeUnitDeparture h s
  | .portDeparture h => Sys2Proof.Machine.execPortDeparture h s
  | .noticeOffer h k => Sys2Proof.Machine.execNoticeOffer h k s
  | .storeSettingChange => Sys2Proof.Machine.execStoreSettingChange s
  | .correctedCount => Sys2Proof.Machine.execCorrectedCount s
  | .uncorrectedCount => Sys2Proof.Machine.execUncorrectedCount s
  | .cmdWrite h code => Sys2Proof.Machine.execCmdWrite h code s
  | .commandAdmission h => Sys2Proof.Machine.execCommandAdmission h s
  | .serialTransactionBegin h => Sys2Proof.Machine.execSerialTransactionBegin h s
  | .headerByte h part => Sys2Proof.Machine.execHeaderByte h part s
  | .serialTransactionEnd h cutBits => Sys2Proof.Machine.execSerialTransactionEnd h cutBits s

end Sys2Proof.Machine
end

