-- ==== Sys2Proof/Safety.lean ====
section
/-! DEFINITION. What a sound state of the part is, block by block, in the words of the rules that say so, and what a
command may touch. The statements speak of these. -/

namespace Sys2Proof.Machine

open Sys2Proof

/-! ## The presence unit -/

/-- A presence record within the values of R2: the session from 0 to 255, and above 0 in JOINED; the term runs in JOINED
only; the fence cause stands in FENCED only. -/
def PresenceRecord.Ok (r : PresenceRecord) : Prop :=
  r.session ≤ Config.sessionLimit
    ∧ (r.state = .joined → 0 < r.session)
    ∧ (r.term.isSome = true ↔ r.state = .joined)
    ∧ (r.fence.isSome = true ↔ r.state = .fenced)

/-- Every presence record is within R2, and a host is OFFLINE exactly while PRSTn of its port or RESETn is low (R2, R18,
R19). -/
def PresenceOk (s : State) : Prop :=
  ∀ h : HostId, (s.record h).Ok ∧ ((s.record h).state = .offline ↔ (s.resetn = true ∨ (s.port h).prstn = true))

/-! ## The lease directory -/

/-- The host stands in the entry's waiter list. -/
def LeaseEntry.hasWaiter (e : LeaseEntry) (h : HostId) : Prop := h ∈ e.waiters.map Prod.fst

/-- A lease entry with the fields its state carries; a pending upgrader never stands as the sole holder (R21, R24, R43,
R52). -/
def LeaseEntry.Ok (e : LeaseEntry) : Prop :=
  (e.waiters.map Prod.fst).Nodup
    ∧ (e.ownerPresent = true → e.transit.isSome = true)
    ∧ match e.state with
      | .free => e.owner = none ∧ e.holders = 0#4 ∧ e.waiters = [] ∧ e.upgrade = none ∧ e.transit = none ∧ e.cause = none
      | .shared => e.owner = none ∧ e.holders ≠ 0#4 ∧ e.transit = none ∧ e.cause = none
          ∧ (∀ h : HostId, e.hasWaiter h → HostSet.has e.holders h = false)
          ∧ (∀ h : HostId, e.upgrade = some h → HostSet.has e.holders h = true ∧ e.holders ≠ HostSet.single h)
      | .exclusive => e.owner.isSome = true ∧ e.holders = 0#4 ∧ e.upgrade = none ∧ e.cause = none
          ∧ (∀ h : HostId, e.hasWaiter h → e.owner ≠ some h)
      | .stranded => e.holders = 0#4 ∧ e.upgrade = none ∧ e.transit = none ∧ e.cause.isSome = true
          ∧ (e.owner = none ↔ e.cause = some .integrity)

/-- Each entry of a waiter list and each pending upgrade has its wait record, and each wait record its entry or its slot
(R42). -/
def WaitsMatch (s : State) : Prop :=
  (∀ (l : LeaseId) (h : HostId) (m : LeaseMode), (h, m) ∈ (s.entry l).waiters →
      (s.wait h).map (fun r => (r.lease, r.kind)) = some (l, m.waitKind))
    ∧ (∀ (l : LeaseId) (h : HostId), (s.entry l).upgrade = some h →
      (s.wait h).map (fun r => (r.lease, r.kind)) = some (l, .upgrade))
    ∧ (∀ (h : HostId) (r : WaitRecord), s.wait h = some r →
      (r.kind = .claimShared ∧ (h, .shared) ∈ (s.entry r.lease).waiters)
        ∨ (r.kind = .claimExclusive ∧ (h, .exclusive) ∈ (s.entry r.lease).waiters)
        ∨ (r.kind = .upgrade ∧ (s.entry r.lease).upgrade = some h))

/-- The host holds the lease, acts as its owner, or waits for it. -/
def LeaseEntry.hasRole (e : LeaseEntry) (h : HostId) : Prop :=
  HostSet.has e.holders h = true ∨ e.acts h = true ∨ e.hasWaiter h

/-- Every holder, acting owner and waiter of a lease is JOINED as the directory counts it, or its departure is being done
and has that lease still before it (R64, R65). -/
def RolesJoined (s : State) : Prop :=
  ∀ (l : LeaseId) (h : HostId), (s.entry l).hasRole h →
    (s.dir.joined.get h).isSome = true ∨ ∃ p, s.dir.departing.get h = some p ∧ l ∈ p.due

/-- The directory is sound: entries, wait records and roles (R21, R42, R65). -/
def DirectoryOk (s : State) : Prop := (∀ l : LeaseId, (s.entry l).Ok) ∧ WaitsMatch s ∧ RolesJoined s

/-! ## The message store -/

/-- The payload memory is canonical and lies within the 128 cells of 16 bytes (R84). -/
def PayloadOk (s : State) : Prop :=
  Memory.wf s.store.payload = true ∧ ∀ c ∈ s.store.payload, c.1 < 128 * Config.cellBytes

/-- Each owned cell belongs to a descriptor that is not FREE, at one of its sequence positions, and no two cells to one
position (R84). -/
def CellsOk (s : State) : Prop :=
  (∀ (c : CellId) (d : DescId) (p : Nat), s.mapEntry c = .owned d p →
      (s.desc d).state ≠ .free ∧ p < (s.desc d).cellCount)
    ∧ ∀ (c c' : CellId) (d : DescId) (p : Nat), s.mapEntry c = .owned d p → s.mapEntry c' = .owned d p → c = c'

/-- The space records, the space waiter list, the stream records and the inbound queues agree with the descriptors, so
that a host has at most one RESERVED and one ASSEMBLING descriptor and a queue at most one OPEN one (R82, R83, R89,
R92). -/
def LinksOk (s : State) : Prop :=
  s.store.spaceList.Nodup
    ∧ (∀ h : HostId, h ∈ s.store.spaceList ↔ ∃ n t, s.space h = .waiting n t)
    ∧ (∀ (h : HostId) (d : DescId), (∃ k, s.space h = .reserved d k) ↔
        (s.desc d).state = .reserved ∧ (s.desc d).source = h)
    ∧ (∀ (h : HostId) (d : DescId), (s.stream h).assembling = some d ↔
        (s.desc d).state = .assembling ∧ (s.desc d).source = h)
    ∧ (∀ d : DescId, (s.desc d).state = .assembling → (s.desc d).msg.isSome = true)
    ∧ (∀ (h : HostId) (d : DescId), (s.stream h).openDesc = some d ↔ (s.desc d).state = .opened ∧ d ∈ s.queue h)
    ∧ (∀ h : HostId, (s.queue h).Nodup)
    ∧ (∀ (h : HostId) (d : DescId), d ∈ s.queue h ↔
        ((s.desc d).state = .queued ∨ (s.desc d).state = .opened) ∧ (s.desc d).msg.map Message.dest = some h)

/-- A message has at most 240 bytes and the cells its length needs; its written count, and the read position of an open
one, are even up to the declared length (R81, R105, R110, R121). -/
def PositionsOk (s : State) : Prop :=
  (∀ (d : DescId) (m : Message), (s.desc d).msg = some m →
      m.length ≤ Config.maxLength ∧ (s.desc d).cellCount = (m.length + 15) / 16
        ∧ m.written ≤ m.length ∧ (m.written % 2 = 0 ∨ m.written = m.length))
    ∧ ∀ (h : HostId) (d : DescId) (m : Message), (s.stream h).openDesc = some d → (s.desc d).msg = some m →
      (s.stream h).readPos ≤ m.length ∧ ((s.stream h).readPos % 2 = 0 ∨ (s.stream h).readPos = m.length)

/-- The store's own objects agree with one another. -/
def StoreOk (s : State) : Prop := CellsOk s ∧ LinksOk s ∧ PositionsOk s

/-- A lease in transit is carried by the QUEUED or OPEN descriptor that its transit record names, to the recipient that
it names (R128). -/
def TransitOk (s : State) : Prop :=
  ∀ (l : LeaseId) (t : Transit), (s.entry l).transit = some t →
    ((s.desc t.desc).state = .queued ∨ (s.desc t.desc).state = .opened)
      ∧ (s.desc t.desc).msg.map (fun m => (m.carried, m.dest)) = some (some l, t.recipient)

/-- The next read of a lease's entry finds no error. -/
def EntrySound (s : State) (l : LeaseId) : Prop := (s.dir.entries.get l).chk = .sound

/-- No read of a descriptor or of a cell map entry finds an error. -/
def StoreSound (s : State) : Prop :=
  (∀ d : DescId, (s.store.descs.get d).chk = .sound) ∧ ∀ c : CellId, (s.store.map.get c).chk = .sound

/-- The state after the handling of an uncorrectable finding of the store, but for what the object's kind asks: FAULT
offered to every host that the store counts JOINED, and one more finding to be counted (R157). -/
def withFault (k : ObjectKind) (index : Nat) (s : State) : State :=
  { s with
    notice := { s.notice with offers := Vector.ofFn fun g => s.notice.offers.get g
      ++ if (s.store.joined.get g).isSome = true then [⟨.fault k index, s.store.joined.get g⟩] else [] }
    settings := { s.settings with uncorrectedDue := s.settings.uncorrectedDue + 1 } }

/-- The cell map with the n lowest-numbered free cells given to a descriptor, in increasing cell order, at positions
from `pos` on (R84, R106, R107). -/
def mapGiven (s : State) (d : DescId) (pos n : Nat) : Vector (Coded MapEntry) 128 :=
  let given := (allCells.filter fun c => s.mapEntry c = .free).take n
  Vector.ofFn fun c => if c ∈ given then ⟨.owned d (pos + given.idxOf c), .sound⟩ else s.store.map.get c

/-- The cell map with the cells a descriptor owns at positions from `lo` on free (R85, R107). -/
def mapFreed (s : State) (d : DescId) (lo : Nat) : Vector (Coded MapEntry) 128 :=
  Vector.ofFn fun c => match s.mapEntry c with
    | .owned d' p => if d' = d ∧ lo ≤ p then ⟨.free, .sound⟩ else s.store.map.get c
    | .free | .retired => s.store.map.get c

/-- The seven argument words of a BEGIN of host h, each a value the table of R104 takes, with the message they describe,
of which nothing is written yet. -/
structure BeginArgs (h : HostId) (dest length cls tag fenceLease fenceGen carried : Word) (m : Message) : Prop where
  dest : dest.toNat = m.dest.val
  other : m.dest ≠ h
  length : length.toNat = m.length
  limit : m.length ≤ 240
  cls : cls.toNat = m.cls.code
  tag : m.tag = tag
  written : m.written = 0
  fence : (fenceLease = 0xFFFF#16 ∧ m.fence = none)
    ∨ ∃ l : LeaseId, fenceLease.toNat = l.val ∧ m.fence = some (l, fenceGen)
  carried : (carried = 0xFFFF#16 ∧ m.carried = none) ∨ ∃ l : LeaseId, carried.toNat = l.val ∧ m.carried = some l

/-! ## The notice unit, the settings and the ports -/

/-- Each ring holds at most 8 notices and each lost count stays within 0 to 255 (R136). -/
def RingsOk (s : State) : Prop :=
  ∀ h : HostId, (s.ring h).length ≤ Config.ringCapacity ∧ s.lost h ≤ Config.lostLimit

/-- A value within the range of a setting (R147). -/
def Setting.inRange (x : Setting) (v : Nat) : Prop := x.low ≤ v ∧ v ≤ x.high

/-- The recorded settings, the store's own three and the changes on their way to it are within their ranges, the error
counts within theirs, and the time base within the divider in force (R146, R147, R153). -/
def SettingsOk (s : State) : Prop :=
  (∀ x : Setting, x.inRange (s.setting x))
    ∧ Setting.inRange .descQuota s.store.descQuota
    ∧ Setting.inRange .cellQuota s.store.cellQuota
    ∧ Setting.inRange .inboundLimit s.store.inboundLimit
    ∧ (∀ c ∈ s.store.changes, c.setting.inRange c.value)
    ∧ s.settings.corrected ≤ Config.correctedLimit
    ∧ s.settings.uncorrected ≤ Config.uncorrectedLimit
    ∧ Setting.inRange .tickDiv s.timeBase.divider
    ∧ s.timeBase.count < s.timeBase.divider

/-- A port within R165: at most 8 argument words, the reply position at most 8, and BUSY and REPLY-READY never set
together. -/
def Port.Ok (p : Port) : Prop :=
  p.args.length ≤ Config.frameCapacity ∧ p.replyPos ≤ 8 ∧ ¬ (p.busy = true ∧ p.replyReady = true)

/-- Every port is within R165. -/
def PortsOk (s : State) : Prop := ∀ h : HostId, (s.port h).Ok

/-! ## A departure raised -/

/-- Between two states the presence unit has raised the departure of a host, with a cause, and done nothing else (R15,
R16): the record takes its state and fence cause, keeps its session and stops its term; the departure is announced with
the session that ended, delivered to the port unless a port reset raised it, and told to each other JOINED host. -/
structure DepartureRaised (h : HostId) (cause : DepartureCause) (st : PresenceState) (fence : Option FenceCause)
    (s t : State) : Prop where
  record : t.record h = ⟨st, (s.record h).session, none, fence⟩
  otherRecords : ∀ g, g ≠ h → t.record g = s.record g
  presenceTicks : t.presence.ticks = s.presence.ticks
  evicting : t.presence.evicting = s.presence.evicting
  dir : t.dir = { s.dir with path := s.dir.path ++ [.departure h cause (s.record h).session] }
  store : t.store = { s.store with path := s.store.path ++ [.path (.departure h cause (s.record h).session)] }
  notice : t.notice = { s.notice with
    path := s.notice.path ++ [.departure h cause (s.record h).session], offers := t.notice.offers }
  told : ∀ g, g ≠ h → (s.record g).state = .joined → t.notice.offers.get g =
    s.notice.offers.get g ++ [⟨.peerDeparted h cause, some (s.record g).session⟩]
  untold : ∀ g, g = h ∨ (s.record g).state ≠ .joined → t.notice.offers.get g = s.notice.offers.get g
  port : t.port h = if cause = .portReset then s.port h
    else { s.port h with departures := (s.port h).departures ++ [cause] }
  otherPorts : ∀ g, g ≠ h → t.port g = s.port g
  settings : t.settings = s.settings
  timeBase : t.timeBase = s.timeBase
  resetn : t.resetn = s.resetn
  pending : t.pending = s.pending

/-! ## The commands that name a lease -/

/-- The seven commands of host h that name a lease: the code, the argument words and the row of each (R27, R49, R76). -/
def leaseCommands (h : HostId) (lease a b : Word) : List (CommandKind × List Word × Instr) :=
  [(.claim, [lease, a, b], .claim h lease a b), (.release, [lease], .release h lease),
    (.upgrade, [lease, a], .upgrade h lease a), (.downgrade, [lease], .downgrade h lease),
    (.repair, [lease], .repair h lease), (.query, [lease], .query h lease),
    (.writeValue, [lease, a, b], .writeValue h lease a b)]

/-! ## What a command may touch -/

/-- The host at whose port, record or wait a row's step is; none for the rows of the whole part. -/
def hostOf : Instr → Option HostId
  | .join h | .leave h | .renew h | .status h | .evict h _ | .unknownCommandCode h _ => some h
  | .claim h _ _ _ | .release h _ | .upgrade h _ _ | .downgrade h _ | .cancelWait h | .repair h _ | .query h _ => some h
  | .writeValue h _ _ _ | .spaceWait h _ _ | .spaceCancel h | .beginMessage h _ _ _ _ _ _ _ | .commit h => some h
  | .abandon h | .unwind h | .openMessage h | .accept h | .refuse h | .nextNotice h | .setParam h _ _ => some h
  | .readParam h _ | .deviceStatus h | .clearCounts h | .replyArrival h _ | .argWrite h _ | .rplRead h => some h
  | .payWrite h _ | .payRead h | .pstatRead h | .pcountRead h | .amaskWrite h _ | .windowWriteIgnored h _ _ => some h
  | .prstnAssert h | .prstnRelease h | .termExpiry h | .claimWaitExpiry h | .upgradeWaitExpiry h => some h
  | .spaceWaitExpiry h | .reservationLapse h | .directoryJoin h | .storeJoin h | .noticeUnitJoin h => some h
  | .directoryDeparture h _ | .storeDeparture h | .noticeUnitDeparture h | .portDeparture h | .noticeOffer h _ => some h
  | .cmdWrite h _ | .commandAdmission h | .serialTransactionBegin h | .headerByte h _ => some h
  | .serialTransactionEnd h _ => some h
  | .resetnAssert | .resetnRelease _ | .tick _ | .storeSettingChange | .correctedCount | .uncorrectedCount => none

/-- What host h sees of its own port and no other host's command changes (R165): the frames, the flags, the mask and the
mode. -/
structure WindowView where
  args : List Word
  reply : Vector Word 8
  replyPos : Nat
  busy : Bool
  replyReady : Bool
  overrun : Bool
  mask : AlertMask
  mode : PortMode
  deriving DecidableEq, Repr

/-- The window state of a port (R165). -/
def Port.view (p : Port) : WindowView :=
  ⟨p.args, p.reply, p.replyPos, p.busy, p.replyReady, p.overrun, p.mask, p.mode⟩

end Sys2Proof.Machine
end

