-- ==== Sys2Proof/Certificates/Slice0/Obligations.lean ====
section
/-! DEFINITION. The statements for the provers. A premise `takeX… = some (id, t)` says that the block takes the command;
`t` is then the state without it, and `id` the command's number. -/

open Sys2Proof Sys2Proof.Machine

/-! ## The queue of commands and the command path -/

/-- A step takes the command at the front of the queue and runs it on the state with the rest of the queue; with nothing
waiting the part idles (the model's choice, log 2). -/
def Obligations.StepRunsFrontCommand : Prop :=
  (∀ (s : State) (c : Instr) (rest : List Instr), s.pending = c :: rest →
      step s = exec c { s with pending := rest })
    ∧ ∀ s : State, s.pending = [] → step s = .next s

/-- Every command and event of the table answers a next state from every state, and leaves the queue of waiting commands
alone: nothing stops the part. -/
def Obligations.EveryCommandAnswersNext : Prop :=
  ∀ (i : Instr) (s : State), ∃ t : State, exec i s = .next t ∧ t.pending = s.pending

/-- A word names a command exactly when it is that command's code, and a header byte selects a direction and a location
exactly when it is the byte written for them: bits 6 to 3 are 0 (R173, R179). -/
def Obligations.CodesAndHeadersDecode : Prop :=
  (∀ (w : Word) (k : CommandKind), decodeCommand w = some k ↔ w = k.code)
    ∧ (∀ (b : Byte) (read : Bool) (loc : Loc), decodeHeader b = some (read, loc) ↔ b = encodeHeader read loc)
    ∧ ∀ b : Byte, decodeHeader b = none ↔ b.extractLsb' 3 4 ≠ 0#4

/-- A block takes the command that stands first on its path, and only its path changes; the presence unit takes the
command written at a port that is not OFFLINE, and passes on the PAY words behind it. Argument words beyond the frame
read as 0. COMMIT and ACCEPT are taken when the directory counts the host in the store's session (log 28). An EVICT that the
presence unit admitted is gone on with before any other command of its own from that host (log 33). -/
def Obligations.FirstCommandOnPathIsTaken : Prop :=
  ∀ (s : State) (c : Command) (h : HostId) (k : CommandKind) (args : List Word),
    c.host = h → c.code = k.code → (∀ i, i < args.length → args[i]? = some ((c.args[i]?).getD 0#16)) →
    (∀ rest, s.dir.path = .command c :: rest → (s.dir.joined.get h).isSome = true →
      s.takeDirCommand h k args = some (c.id, { s with dir := { s.dir with path := rest } }))
    ∧ (∀ rest, takeStoreItem s.store.path = some (.command c, rest) →
      s.takeStoreCommand h k args = some (c.id, { s with store := { s.store with path := rest } })
        ∧ (args = [] → (s.dir.joined.get h).isSome = true → s.dir.joined.get h = s.store.joined.get h →
          s.takeTransferCommand h k = some (c.id, { s with store := { s.store with path := rest } })))
    ∧ (∀ rest, s.notice.path = .command c :: rest →
      s.takeNoticeCommand h k args = some (c.id, { s with notice := { s.notice with path := rest } }))
    ∧ (∀ rest, s.settings.path = .command c :: rest →
      s.takeSettingsCommand h k args = some (c.id, { s with settings := { s.settings with path := rest } }))
    ∧ (∀ target, s.presence.evicting.get h = some c → k = .evict → args = [target] →
      s.takeAdmittedEvict h target = some (c.id, { s with
        presence := { s.presence with evicting := upd s.presence.evicting h none } }))
    ∧ ((s.port h).unadmitted = some c → (s.record h).state ≠ .offline → s.presence.evicting.get h = none →
      s.takePresenceCommand h k args = some (c.id, { s with
        ports := upd s.ports h { s.port h with unadmitted := none, parked := [] }
        presence := if (s.record h).state = .joined
          then { s.presence with
            records := upd s.presence.records h { s.record h with term := some s.settings.presenceTerm } }
          else s.presence
        store := { s.store with path := s.store.path ++ (s.port h).parked.map (StoreItem.pay h) } }))

/-! ## Resets -/

/-- The assertion of RESETn: every block takes its values of device reset, whatever the part was doing (R2, R19, R25,
R91, R136, R147, R153, R165). The mode of each port is kept until it is latched anew (log 4). The release of RESETn:
each port latches its mode, SERIAL from a high MODE pin; each host whose PRSTn is not asserted becomes UNJOINED and
the others stay OFFLINE; nothing else changes (R19, R177). A serial transaction begun under RESETn keeps its phase
over the release (log 22). -/
def Obligations.DeviceResetAndRelease : Prop :=
  (∀ s : State, ∃ t : State, exec .resetnAssert s = .next t
      ∧ t.resetn = true ∧ t.pending = s.pending ∧ t.timeBase = ⟨0, 25000⟩
      ∧ (∀ h : HostId, t.record h = ⟨.offline, 0, none, none⟩ ∧ t.presence.evicting.get h = none
          ∧ t.wait h = none ∧ t.dir.joined.get h = none ∧ t.dir.departing.get h = none
          ∧ t.queue h = [] ∧ t.space h = .empty ∧ t.stream h = ⟨none, none, 0⟩ ∧ t.store.joined.get h = none
          ∧ t.ring h = [] ∧ t.lost h = 0 ∧ t.notice.joined.get h = none ∧ t.notice.offers.get h = []
          ∧ (t.port h).view = ⟨[], Vector.replicate 8 0#16, 0, false, false, false, ⟨false, false, false⟩, (s.port h).mode⟩
          ∧ (t.port h).orphaned = [] ∧ (t.port h).replies = [] ∧ (t.port h).unadmitted = none)
      ∧ (∀ l : LeaseId, t.dir.entries.get l =
          ⟨⟨.free, none, 0#4, 0#16, 0#32, [], none, none, false, none⟩, .sound⟩)
      ∧ (∀ d : DescId, t.store.descs.get d = ⟨⟨.free, 0, 0, 0, false, none⟩, .sound⟩)
      ∧ (∀ c : CellId, t.store.map.get c = ⟨.free, .sound⟩ ∧ t.store.cellChk.get c = .sound)
      ∧ t.store.spaceList = [] ∧ t.store.changes = []
      ∧ t.dir.path = [] ∧ t.store.path = [] ∧ t.notice.path = [] ∧ t.settings.path = []
      ∧ t.presence.ticks = 0 ∧ t.dir.ticks = 0 ∧ t.store.ticks = 0
      ∧ (∀ x : Setting, t.setting x = x.default)
      ∧ t.store.descQuota = 16 ∧ t.store.cellQuota = 48 ∧ t.store.inboundLimit = 24
      ∧ t.settings.corrected = 0 ∧ t.settings.uncorrected = 0)
  ∧ (∀ (s : State) (pins : PerHost Bool), s.resetn = true → ∃ t : State, exec (.resetnRelease pins) s = .next t
      ∧ t.resetn = false ∧ t.dir = s.dir ∧ t.store = s.store ∧ t.notice = s.notice ∧ t.settings = s.settings
      ∧ t.timeBase = s.timeBase ∧ t.presence.ticks = s.presence.ticks
      ∧ t.presence.evicting = s.presence.evicting
      ∧ ∀ h : HostId, t.port h = { s.port h with mode := if pins.get h = true then .serial else .parallel }
        ∧ t.record h =
          if (s.port h).prstn = true then s.record h else { s.record h with state := .unjoined })

/-- PRSTn with RESETn released. Its assertion takes the host to OFFLINE from any state and keeps its session; from
JOINED it raises the departure with cause PORT_RESET and from no other state; the port clears its window, withdraws a
command not yet taken and every PAY word not yet taken, and makes a command in flight an orphan. Its release makes the
host UNJOINED (R18, R176). The model's choices: the PORT_RESET departure is not delivered to the port and departures
already under way to it stay so (log 8), and a serial transaction keeps its phase and SDO its drive (log 22). -/
def Obligations.PortReset : Prop :=
  ∀ (s : State) (h : HostId), s.resetn = false →
    ((s.port h).prstn = false → ∃ u : State,
      ((s.record h).state = .joined → DepartureRaised h .portReset .offline none s u)
      ∧ ((s.record h).state ≠ .joined → u = s.setRecord h ⟨.offline, (s.record h).session, none, none⟩)
      ∧ exec (.prstnAssert h) s = .next { u with
          ports := upd u.ports h { s.port h with
            prstn := true, args := [], reply := Vector.replicate 8 0#16, replyPos := 0, inFlight := none
            replyReady := false, overrun := false, mask := ⟨false, false, false⟩, unadmitted := none, parked := []
            orphaned := match (s.port h).inFlight with
              | some id => if (s.port h).unadmitted = none then (s.port h).orphaned ++ [id] else (s.port h).orphaned
              | none => (s.port h).orphaned }
          store := { u.store with path := u.store.path.filter fun i => match i with
            | .pay g _ => g ≠ h
            | .path _ => true } })
    ∧ ((s.port h).prstn = true → exec (.prstnRelease h) s = .next { s with
        ports := upd s.ports h { s.port h with prstn := false }
        presence := { s.presence with records := upd s.presence.records h { s.record h with state := .unjoined } } })

/-! ## Presence -/

/-- Admission (R4): the presence unit refuses the command at a port with its status word alone, or passes it to its
owner's path, each command to the block listed here, and either way the term of a JOINED host is reloaded first (R5). An
EVICT stays at the presence unit for its charter check (R80, log 33). An unknown code is refused by its own row as
well. -/
def Obligations.AdmissionTable : Prop :=
  ∀ (s : State) (h : HostId) (c : Command), (s.port h).unadmitted = some c → (s.record h).state ≠ .offline →
    let t := (s.takeWritten h).reloadTerm h
    let refused (st : Status) : Host.Outcome State Fault Refusal := .next ((t.passParked h).reply h c.id st [])
    let passed (u : State) : Prop := exec (.commandAdmission h) s = .next (u.passParked h)
    let toSettings : State := { t with settings := { t.settings with path := t.settings.path ++ [.command c] } }
    (t.record h =
        if (s.record h).state = .joined then { s.record h with term := some s.settings.presenceTerm } else s.record h)
    ∧ (∀ k, decodeCommand c.code = some k →
      (k ≠ .join → k ≠ .status → k ≠ .readParam → k ≠ .deviceStatus →
        ((s.record h).state = .unjoined → exec (.commandAdmission h) s = refused .notJoined)
        ∧ ((s.record h).state = .fenced → exec (.commandAdmission h) s = refused .fenced))
      ∧ (k = .readParam ∨ k = .deviceStatus → passed toSettings)
      ∧ ((s.record h).state = .joined →
        (k ∈ [.claim, .release, .upgrade, .downgrade, .cancelWait, .repair, .query, .writeValue] →
          passed { t with dir := { t.dir with path := t.dir.path ++ [.command c] } })
        ∧ (k ∈ [.spaceWait, .spaceCancel, .beginMessage, .commit, .abandon, .openMessage, .accept, .refuse, .unwind] →
          passed { t with store := { t.store with path := t.store.path ++ [.path (.command c)] } })
        ∧ (k = .nextNotice → passed { t with notice := { t.notice with path := t.notice.path ++ [.command c] } })
        ∧ (k = .setParam ∨ k = .clearCounts → passed toSettings)
        ∧ (k = .evict → s.presence.evicting.get h = none → passed { t with
            presence := { t.presence with evicting := upd t.presence.evicting h (some c) } })
        ∧ (k = .join → exec (.commandAdmission h) s = refused .already)))
    ∧ (decodeCommand c.code = none → ∀ i ∈ [Instr.commandAdmission h, Instr.unknownCommandCode h c.code],
        ((s.record h).state = .unjoined → exec i s = refused .notJoined)
        ∧ ((s.record h).state = .fenced → exec i s = refused .fenced)
        ∧ ((s.record h).state = .joined → exec i s = refused .badArg))

/-- JOIN (R7, R3): from UNJOINED or FENCED the host is JOINED in its next session with its term loaded, the join is
announced to the three blocks, PEER_JOINED is offered to each other JOINED host, and the reply is OK; a JOINED host has
its term reloaded and is refused ALREADY. -/
def Obligations.JoinAdmitsHost : Prop :=
  ∀ (s t : State) (h : HostId) (id : Nat), s.takePresenceCommand h .join [] = some (id, t) →
    let session := if (s.record h).session < 255 then (s.record h).session + 1 else 1
    let term := s.settings.presenceTerm
    ((s.record h).state = .joined → t.record h = { s.record h with term := some term }
      ∧ exec (.join h) s = .next (t.reply h id .already []))
    ∧ ((s.record h).state = .unjoined ∨ (s.record h).state = .fenced → exec (.join h) s = .next { t with
        presence := { t.presence with records := upd t.presence.records h ⟨.joined, session, some term, none⟩ }
        ports := upd t.ports h { t.port h with replies := (t.port h).replies ++
          [⟨id, [Status.ok.code, word h.val, word session, word term], false⟩] }
        dir := { t.dir with path := t.dir.path ++ [.join h session] }
        store := { t.store with path := t.store.path ++ [.path (.join h session)] }
        notice := { t.notice with
          path := t.notice.path ++ [.join h session]
          offers := Vector.ofFn fun g =>
            if g ≠ h ∧ (s.record g).state = .joined
            then t.notice.offers.get g ++ [⟨.peerJoined h session, some (s.record g).session⟩]
            else t.notice.offers.get g } })

/-- LEAVE (R10): from JOINED the departure is raised with cause LEFT, the host is UNJOINED with its session kept, and the
reply OK with the session that ended follows the departure at the port (R175); the other states are refused. The expiry
of a term (R14) is due when the term has come to 0, which is the model's choice (log 9): the host is FENCED, cause
LAPSED, its session kept, and its departure raised with cause LAPSED. -/
def Obligations.LeaveAndExpiryEndSession : Prop :=
  (∀ (s t : State) (h : HostId) (id : Nat), s.takePresenceCommand h .leave [] = some (id, t) →
      ((s.record h).state = .unjoined → exec (.leave h) s = .next (t.reply h id .notJoined []))
      ∧ ((s.record h).state = .fenced → exec (.leave h) s = .next (t.reply h id .fenced []))
      ∧ ((s.record h).state = .joined → ∃ u : State, DepartureRaised h .left .unjoined none t u
          ∧ exec (.leave h) s = .next (u.setPort h { u.port h with replies := (u.port h).replies ++
              [⟨id, [Status.ok.code, word (s.record h).session], true⟩] })))
  ∧ (∀ (s : State) (h : HostId), (s.record h).state = .joined → (s.record h).term = some 0 →
      ∃ t : State, exec (.termExpiry h) s = .next t ∧ DepartureRaised h .lapsed .fenced (some .lapsed) s t)

/-- EVICT (R11, R80): a caller that does not act as owner of L0 is refused CHARTER; one that does is refused BAD_ARG
unless the target is another JOINED host, and otherwise the target is FENCED, cause EVICTED, its departure is raised,
and the reply names it and the session ended. An L0 with one bit in error is corrected and the check goes on; an
uncorrectable one is rebuilt and the EVICT answered DAMAGED (R150). The check is asked of an EVICT that was admitted
before, whatever the caller has become since, or together with the admission of a JOINED caller. That admission and
check are two steps, or one with the command still at the port, is the model's choice (log 33). -/
def Obligations.EvictFencesTarget : Prop :=
  ∀ (s t : State) (h : HostId) (target : Word) (id : Nat),
    let run := exec (.evict h target) s
    let decided : Prop :=
      ((t.dir.entries.get 0).chk = .correctable →
        run = exec (.evict h target) ((s.putEntry 0 (s.entry 0)).raiseCorrected))
      ∧ ((t.dir.entries.get 0).chk = .uncorrectable →
        run = .next (((rebuildEntry 0 t).dirFinding 0).reply h id .damaged []))
      ∧ (EntrySound t 0 →
        ((t.entry 0).acts h = false → run = .next (t.reply h id .charter []))
        ∧ ((t.entry 0).acts h = true →
          (4 ≤ target.toNat → run = .next (t.reply h id .badArg []))
          ∧ ∀ g : HostId, target.toNat = g.val →
            (g = h ∨ (s.record g).state ≠ .joined → run = .next (t.reply h id .badArg []))
            ∧ (g ≠ h → (s.record g).state = .joined →
              ∃ u : State, DepartureRaised g .evicted .fenced (some .evicted) t u
                ∧ run = .next (u.reply h id .ok [word g.val, word (s.record g).session]))))
    (s.takeAdmittedEvict h target = some (id, t) → decided)
    ∧ (s.takePresenceCommand h .evict [target] = some (id, t) →
      ((s.record h).state = .unjoined → run = .next (t.reply h id .notJoined []))
      ∧ ((s.record h).state = .fenced → run = .next (t.reply h id .fenced []))
      ∧ ((s.record h).state = .joined → decided))

/-- RENEW and STATUS (R8, R9), which reload the term of a JOINED host: RENEW answers it OK with the term loaded; STATUS
answers OK in every state with the host, its state, its session, the term loaded in JOINED and 0 otherwise, and its fence
cause or FFFFh. -/
def Obligations.RenewAndStatusReport : Prop :=
  (∀ (s t : State) (h : HostId) (id : Nat), s.takePresenceCommand h .renew [] = some (id, t) →
    ((s.record h).state = .joined → t.record h = { s.record h with term := some s.settings.presenceTerm }
      ∧ exec (.renew h) s = .next (t.reply h id .ok [word s.settings.presenceTerm]))
    ∧ ((s.record h).state = .unjoined → exec (.renew h) s = .next (t.reply h id .notJoined []))
    ∧ ((s.record h).state = .fenced → exec (.renew h) s = .next (t.reply h id .fenced [])))
  ∧ ∀ (s t : State) (h : HostId) (id : Nat), s.takePresenceCommand h .status [] = some (id, t) →
    ((s.record h).state = .joined → t.record h = { s.record h with term := some s.settings.presenceTerm })
    ∧ exec (.status h) s = .next (t.reply h id .ok [word h.val,
      (match (s.record h).state with
        | .offline => 0#16
        | .unjoined => 1#16
        | .joined => 2#16
        | .fenced => 3#16),
      word (s.record h).session,
      if (s.record h).state = .joined then word s.settings.presenceTerm else 0#16,
      match (s.record h).fence with
        | none => 0xFFFF#16
        | some .lapsed => 1#16
        | some .evicted => 2#16])

/-! ## The lease directory: commands -/

/-- CLAIM granted at once (R30, R31, R22): a claim of a FREE lease, whatever the wait argument, and a shared claim of a
SHARED lease with no waiter and no pending upgrade. The reply gives the lease, the mode and the generation. -/
def Obligations.ClaimGrantedAtOnce : Prop :=
  ∀ (s t : State) (h : HostId) (l : LeaseId) (lease mode wait : Word) (id : Nat),
    s.takeDirCommand h .claim [lease, mode, wait] = some (id, t) → lease.toNat = l.val → EntrySound t l →
    let e := t.entry l
    e.sentAway h = false → e.heldBy h = false → (wait = 0#16 ∨ t.wait h = none) →
    (e.state = .free → mode = 1#16 → exec (.claim h lease mode wait) s = .next
        ((t.putEntry l { e with state := .shared, holders := HostSet.single h }).reply h id .ok
          [lease, 1#16, e.generation]))
    ∧ (e.state = .free → mode = 2#16 → exec (.claim h lease mode wait) s = .next
        ((t.putEntry l { e with
            state := .exclusive, owner := some h, holders := 0#4, generation := e.generation + 1#16 }).reply h id .ok
          [lease, 2#16, e.generation + 1#16]))
    ∧ (e.state = .shared → mode = 1#16 → e.waiters = [] → e.upgrade = none →
        exec (.claim h lease mode wait) s = .next
          ((t.putEntry l { e with holders := HostSet.insert e.holders h }).reply h id .ok
            [lease, 1#16, e.generation]))

/-- CLAIM not granted (R29, R30, R31, R44): the three checks in their order; then BUSY or STRANDED for a claim that will
not wait, and otherwise the claim queued at the tail of the waiter list, its wait record filled, and the reply QUEUED. -/
def Obligations.ClaimRefusedOrQueued : Prop :=
  ∀ (s t : State) (h : HostId) (l : LeaseId) (lease mode wait : Word) (id : Nat),
    s.takeDirCommand h .claim [lease, mode, wait] = some (id, t) → lease.toNat = l.val → EntrySound t l →
    (mode = 1#16 ∨ mode = 2#16) →
    let e := t.entry l
    let m : LeaseMode := if mode = 1#16 then .shared else .exclusive
    let deadline := if wait.toNat = 65535 then none else some wait.toNat
    (e.sentAway h = true → exec (.claim h lease mode wait) s = .next (t.reply h id .inTransit []))
    ∧ (e.sentAway h = false → e.heldBy h = true → exec (.claim h lease mode wait) s = .next (t.reply h id .held []))
    ∧ (e.sentAway h = false → e.heldBy h = false →
      (wait ≠ 0#16 → t.wait h ≠ none → exec (.claim h lease mode wait) s = .next (t.reply h id .waiting []))
      ∧ (wait = 0#16 → e.state = .exclusive ∨
            (e.state = .shared ∧ (mode = 2#16 ∨ e.waiters ≠ [] ∨ e.upgrade ≠ none)) →
          exec (.claim h lease mode wait) s = .next (t.reply h id .busy [word e.state.code, e.generation]))
      ∧ (wait = 0#16 → e.state = .stranded → exec (.claim h lease mode wait) s = .next
          (t.reply h id .stranded [word (causeCode e.cause), optHostWord e.owner, e.generation]))
      ∧ (wait ≠ 0#16 → t.wait h = none → e.state = .exclusive ∨ e.state = .stranded ∨
            (e.state = .shared ∧ (mode = 2#16 ∨ e.waiters ≠ [] ∨ e.upgrade ≠ none)) →
          exec (.claim h lease mode wait) s = .next
            (((t.putEntry l { e with waiters := e.waiters ++ [(h, m)] }).setWait h
                (some ⟨l, if mode = 1#16 then .claimShared else .claimExclusive, deadline⟩)).reply h id .queued
              [lease, mode, word (e.waiters.length + 1), word e.state.code, e.generation, wait])))

/-- Every command that names a lease (R27, R28): an argument above 63 is refused BAD_ARG, and so is a CLAIM whose mode is
neither 1 nor 2; neither reads an entry nor changes anything. An entry with one bit in error is corrected and counted,
and the command goes on as if it had been sound (R156). -/
def Obligations.LeaseArgumentsThenRead : Prop :=
  ∀ (s t : State) (h : HostId) (lease a b : Word) (id : Nat),
    (∀ x ∈ leaseCommands h lease a b, s.takeDirCommand h x.1 x.2.1 = some (id, t) →
      (64 ≤ lease.toNat → exec x.2.2 s = .next (t.reply h id .badArg []))
      ∧ ∀ l : LeaseId, lease.toNat = l.val → (s.dir.entries.get l).chk = .correctable →
          (x.1 = .claim → a = 1#16 ∨ a = 2#16) →
          exec x.2.2 s = exec x.2.2 ((s.putEntry l (s.entry l)).raiseCorrected))
    ∧ (s.takeDirCommand h .claim [lease, a, b] = some (id, t) → a ≠ 1#16 → a ≠ 2#16 →
        exec (.claim h lease a b) s = .next (t.reply h id .badArg []))

/-- A lease command or a CANCEL_WAIT whose read finds the entry uncorrectable is answered DAMAGED (R28, R47): the entry
is rebuilt as STRANDED with cause INTEGRITY, generation 0 and value 0; each wait whose record names the lease ends with
STRANDED; FAULT is offered to every host that the directory counts JOINED; and the finding goes to be counted (R157,
R158). Nothing else changes. -/
def Obligations.DamagedEntryIsRebuilt : Prop :=
  ∀ (s t : State) (h : HostId) (l : LeaseId) (id : Nat), (t.dir.entries.get l).chk = .uncorrectable →
    let u := (rebuildEntry l t).dirFinding l
    (∀ (lease a b : Word), ∀ x ∈ leaseCommands h lease a b, s.takeDirCommand h x.1 x.2.1 = some (id, t) →
        lease.toNat = l.val → (x.1 = .claim → a = 1#16 ∨ a = 2#16) →
        exec x.2.2 s = .next (u.reply h id .damaged []))
    ∧ (s.takeDirCommand h .cancelWait [] = some (id, t) → (∃ k d, t.wait h = some ⟨l, k, d⟩) →
        exec (.cancelWait h) s = .next (u.reply h id .damaged []))
    ∧ u = { t with
        dir := { t.dir with
          entries := upd t.dir.entries l
            ⟨⟨.stranded, none, 0#4, 0#16, 0#32, [], none, none, false, some .integrity⟩, .sound⟩
          waits := Vector.ofFn fun g => if (t.wait g).map WaitRecord.lease = some l then none else t.wait g }
        notice := { t.notice with
          offers := Vector.ofFn fun g => t.notice.offers.get g
            ++ (if (t.wait g).map WaitRecord.lease = some l
                then [⟨.stranded l none .integrity, t.dirSession g⟩] else [])
            ++ (if (t.dir.joined.get g).isSome = true then [⟨.fault .directory l.val, t.dirSession g⟩] else []) }
        settings := { t.settings with uncorrectedDue := t.settings.uncorrectedDue + 1 } }

/-- RELEASE (R34, R35, R36): by the acting owner, refused IN_TRANSIT in transit and otherwise the lease FREE; by a shared
holder, the holder and its own pending upgrade removed, and the lease FREE when no holder is left; by any other host
refused NOT_HOLDER. The grant scan follows in the same step, and the reply reports the lease after it and the number
admitted. -/
def Obligations.ReleaseGivesUpHold : Prop :=
  ∀ (s t : State) (h : HostId) (l : LeaseId) (lease : Word) (id : Nat),
    s.takeDirCommand h .release [lease] = some (id, t) → lease.toNat = l.val → EntrySound t l →
    let e := t.entry l
    let done (r : State × Nat) : State :=
      r.1.reply h id .ok [word (r.1.entry l).state.code, (r.1.entry l).generation, word r.2]
    (e.acts h = true → e.transit ≠ none → exec (.release h lease) s = .next (t.reply h id .inTransit []))
    ∧ (e.acts h = true → e.transit = none → exec (.release h lease) s =
        .next (done (grantScan l (t.putEntry l { e with state := .free, owner := none }))))
    ∧ (e.acts h = false → HostSet.has e.holders h = true → e.upgrade ≠ some h → exec (.release h lease) s =
        .next (done (grantScan l (t.putEntry l { e with
          state := if HostSet.erase e.holders h = 0#4 then .free else e.state
          holders := HostSet.erase e.holders h }))))
    ∧ (e.acts h = false → HostSet.has e.holders h = true → e.upgrade = some h → exec (.release h lease) s =
        .next (done (grantScan l ((t.setWait h none).putEntry l { e with
          state := if HostSet.erase e.holders h = 0#4 then .free else e.state
          holders := HostSet.erase e.holders h
          upgrade := none }))))
    ∧ (e.acts h = false → HostSet.has e.holders h = false →
        exec (.release h lease) s = .next (t.reply h id .notHolder []))

/-- The grant scan (R52, R56, R57, R58), row by row: the pending upgrade of the sole holder completed; nothing while
another holder remains; the EXCLUSIVE head of a FREE lease granted; the run of SHARED waiters at the head of a FREE or
SHARED lease granted whole; otherwise nothing. Each host granted has its wait record emptied and is offered GRANTED. -/
def Obligations.GrantScanTable : Prop :=
  ∀ (s : State) (l : LeaseId),
    let e := s.entry l
    (∀ u : HostId, e.upgrade = some u →
      (e.state = .shared → e.holders = HostSet.single u → grantScan l s =
        (((s.putEntry l { e with
            state := .exclusive, owner := some u, holders := 0#4, generation := e.generation + 1#16, upgrade := none }).setWait u none).offerDir u
          (.granted l .exclusive (e.generation + 1#16)), 1))
      ∧ (e.holders ≠ HostSet.single u → grantScan l s = (s, 0)))
    ∧ (e.upgrade = none →
      (∀ h rest, e.state = .free → e.waiters = (h, .exclusive) :: rest → grantScan l s =
        (((s.putEntry l { e with
            state := .exclusive, owner := some h, holders := 0#4, generation := e.generation + 1#16, waiters := rest }).setWait h none).offerDir h
          (.granted l .exclusive (e.generation + 1#16)), 1))
      ∧ (∀ h rest, (e.state = .free ∨ e.state = .shared) → e.waiters = (h, .shared) :: rest →
        (e.waiters.map Prod.fst).Nodup →
        let run := e.waiters.takeWhile fun w => w.2 = .shared
        ∃ t : State, grantScan l s = (t, run.length)
          ∧ t = { s with
            dir := { s.dir with
              entries := upd s.dir.entries l ⟨{ e with
                state := .shared
                holders := run.foldl (fun x w => HostSet.insert x w.1) e.holders
                waiters := e.waiters.drop run.length }, .sound⟩
              waits := Vector.ofFn fun g => if g ∈ run.map Prod.fst then none else s.wait g }
            notice := { s.notice with
              offers := Vector.ofFn fun g => s.notice.offers.get g
                ++ if g ∈ run.map Prod.fst then [⟨.granted l .shared e.generation, s.dirSession g⟩] else [] } })
      ∧ (e.waiters = [] ∨ e.state = .exclusive ∨ e.state = .stranded
          ∨ (e.state = .shared ∧ ∃ h rest, e.waiters = (h, .exclusive) :: rest) → grantScan l s = (s, 0)))

/-- DOWNGRADE and WRITE_VALUE (R38, R39): refused NOT_HOLDER to all but the acting owner, and IN_TRANSIT in transit;
DOWNGRADE makes the owner the one shared holder, keeps the generation and runs the grant scan, WRITE_VALUE replaces the
32-bit value, the high word first; each reports the generation. -/
def Obligations.DowngradeAndWriteValue : Prop :=
  ∀ (s t : State) (h : HostId) (l : LeaseId) (lease hi lo : Word) (id : Nat), lease.toNat = l.val → EntrySound t l →
    let e := t.entry l
    (s.takeDirCommand h .downgrade [lease] = some (id, t) →
      (e.acts h = false → exec (.downgrade h lease) s = .next (t.reply h id .notHolder []))
      ∧ (e.acts h = true → e.transit ≠ none → exec (.downgrade h lease) s = .next (t.reply h id .inTransit []))
      ∧ (e.acts h = true → e.transit = none →
          let r := grantScan l (t.putEntry l { e with state := .shared, owner := none, holders := HostSet.single h })
          exec (.downgrade h lease) s = .next (r.1.reply h id .ok [e.generation, word r.2])))
    ∧ (s.takeDirCommand h .writeValue [lease, hi, lo] = some (id, t) →
      (e.acts h = false → exec (.writeValue h lease hi lo) s = .next (t.reply h id .notHolder []))
      ∧ (e.acts h = true → e.transit ≠ none →
          exec (.writeValue h lease hi lo) s = .next (t.reply h id .inTransit []))
      ∧ (e.acts h = true → e.transit = none → ∃ v : BitVec 32, v.toNat = hi.toNat * 65536 + lo.toNat
          ∧ exec (.writeValue h lease hi lo) s =
            .next ((t.putEntry l { e with value := v }).reply h id .ok [e.generation])))

/-- QUERY (R40): the reply OK with the summary word laid out bit by bit, the owner, the pending upgrader and the
recipient or FFFFh, the generation and the two words of the value; nothing changes. -/
def Obligations.QueryReportsEntry : Prop :=
  ∀ (s t : State) (h : HostId) (l : LeaseId) (lease : Word) (id : Nat),
    s.takeDirCommand h .query [lease] = some (id, t) → lease.toNat = l.val → EntrySound t l →
    let e := t.entry l
    e.waiters.length ≤ 4 →
    ∃ w v1 v0 : Word,
      exec (.query h lease) s = .next (t.reply h id .ok [w, optHostWord e.owner, optHostWord e.upgrade,
        optHostWord (e.transit.map Transit.recipient), e.generation, v1, v0])
      ∧ w.extractLsb' 0 2 = BitVec.ofNat 2 e.state.code
      ∧ w.extractLsb' 2 2 = BitVec.ofNat 2 (causeCode e.cause)
      ∧ w.extractLsb' 4 4 = e.holders
      ∧ w.extractLsb' 8 3 = BitVec.ofNat 3 e.waiters.length
      ∧ w.getLsbD 11 = e.transit.isSome
      ∧ w.getLsbD 12 = (e.transit.isSome && e.ownerPresent)
      ∧ w.extractLsb' 13 3 = 0#3
      ∧ e.value.toNat = v1.toNat * 65536 + v0.toNat

/-- UPGRADE (R49, R50, R51): its checks in their order; the only holder becomes exclusive owner at once, generation raised
by one; otherwise the upgrade is made pending with a wait record of kind UPGRADE, and the reply is QUEUED. -/
def Obligations.UpgradeChecksAndEffect : Prop :=
  ∀ (s t : State) (h : HostId) (l : LeaseId) (lease wait : Word) (id : Nat),
    s.takeDirCommand h .upgrade [lease, wait] = some (id, t) → lease.toNat = l.val → EntrySound t l →
    let e := t.entry l
    let others := word (HostSet.size (HostSet.erase e.holders h))
    let deadline := if wait.toNat = 65535 then none else some wait.toNat
    (e.sentAway h = true → exec (.upgrade h lease wait) s = .next (t.reply h id .inTransit []))
    ∧ (e.sentAway h = false → e.acts h = true → exec (.upgrade h lease wait) s = .next (t.reply h id .held []))
    ∧ (e.sentAway h = false → e.acts h = false → HostSet.has e.holders h = false →
        exec (.upgrade h lease wait) s = .next (t.reply h id .notHolder []))
    ∧ (e.sentAway h = false → e.acts h = false → HostSet.has e.holders h = true →
      (e.holders = HostSet.single h → exec (.upgrade h lease wait) s = .next
        ((t.putEntry l { e with
            state := .exclusive, owner := some h, holders := 0#4, generation := e.generation + 1#16 }).reply h id .ok [lease, 2#16, e.generation + 1#16]))
      ∧ (e.holders ≠ HostSet.single h →
        (∀ u : HostId, e.upgrade = some u → u ≠ h →
          exec (.upgrade h lease wait) s = .next (t.reply h id .conflict [word u.val]))
        ∧ (e.upgrade = none ∨ e.upgrade = some h →
          (wait = 0#16 → exec (.upgrade h lease wait) s = .next (t.reply h id .busy [others, e.generation]))
          ∧ (wait ≠ 0#16 → t.wait h ≠ none → exec (.upgrade h lease wait) s = .next (t.reply h id .waiting []))
          ∧ (wait ≠ 0#16 → t.wait h = none → exec (.upgrade h lease wait) s = .next
              (((t.putEntry l { e with upgrade := some h }).setWait h (some ⟨l, .upgrade, deadline⟩)).reply h id
                .queued [lease, 3#16, others, word e.state.code, e.generation, wait])))))

/-- CANCEL_WAIT (R47, R55): NONE without a wait; otherwise the claim wait leaves the list, or the pending upgrade its
slot, the wait record is emptied, a grant scan runs unless the lease is STRANDED, and the reply reports the lease, the
kind and the number admitted. -/
def Obligations.CancelWaitEndsWait : Prop :=
  ∀ (s t : State) (h : HostId) (id : Nat), s.takeDirCommand h .cancelWait [] = some (id, t) →
    (t.wait h = none → exec (.cancelWait h) s = .next (t.reply h id .none []))
    ∧ ∀ (l : LeaseId) (k : WaitKind) (d : Option Nat), t.wait h = some ⟨l, k, d⟩ → EntrySound t l →
      let e := t.entry l
      let e' := if k = .upgrade then { e with upgrade := none }
        else { e with waiters := e.waiters.filter fun w => w.1 ≠ h }
      let u := (t.putEntry l e').setWait h none
      let r := if e.state = .stranded then (u, 0) else grantScan l u
      exec (.cancelWait h) s = .next (r.1.reply h id .ok [word l.val, word k.code, word r.2])

/-- The expiries of a claim wait and of an upgrade wait (R46, R53, R59), due when a tick has brought the deadline to 0:
WAIT_EXPIRED is offered to the host, its entry leaves the waiter list or its pending upgrade the slot, its record is
emptied, and a grant scan runs unless the lease is STRANDED. An entry found uncorrectable is rebuilt instead (R158,
log 29). -/
def Obligations.LeaseWaitExpiries : Prop :=
  ∀ (s : State) (h : HostId) (l : LeaseId) (k : WaitKind), s.wait h = some ⟨l, k, some 0⟩ →
    let i : Instr := if k = .upgrade then .upgradeWaitExpiry h else .claimWaitExpiry h
    (EntrySound s l →
      let e := s.entry l
      let e' := if k = .upgrade then { e with upgrade := none }
        else { e with waiters := e.waiters.filter fun w => w.1 ≠ h }
      let u := ((s.offerDir h (.waitExpired l k)).putEntry l e').setWait h none
      exec i s = .next (if e.state = .stranded then u else (grantScan l u).1))
    ∧ ((s.dir.entries.get l).chk = .uncorrectable → exec i s = .next ((rebuildEntry l s).dirFinding l))

/-- REPAIR (R76, R77): a STRANDED lease becomes EXCLUSIVE under the caller at the next generation, its cause cleared, the
caller's own wait on it removed, the value and the other waiters kept, no scan and no notice; any other lease is refused
NOT_STRANDED with its state and generation. -/
def Obligations.RepairTakesStrandedLease : Prop :=
  ∀ (s t : State) (h : HostId) (l : LeaseId) (lease : Word) (id : Nat),
    s.takeDirCommand h .repair [lease] = some (id, t) → lease.toNat = l.val → EntrySound t l →
    let e := t.entry l
    (e.state ≠ .stranded → exec (.repair h lease) s =
        .next (t.reply h id .notStranded [word e.state.code, e.generation]))
    ∧ (e.state = .stranded → ∃ v1 v0 : Word, e.value.toNat = v1.toNat * 65536 + v0.toNat
      ∧ let waited : Bool := decide ((t.wait h).map WaitRecord.lease = some l)
        let u := t.putEntry l { e with
          state := .exclusive, owner := some h, holders := 0#4, generation := e.generation + 1#16, cause := none
          waiters := e.waiters.filter fun w => w.1 ≠ h }
        exec (.repair h lease) s = .next ((if waited then u.setWait h none else u).reply h id .ok
          [lease, e.generation + 1#16, word (causeCode e.cause), optHostWord e.owner, if waited then 1#16 else 0#16,
            v1, v0]))

/-! ## The lease directory: joins and departures -/

/-- The directory's part of a departure (R64 to R69). It starts when the departure is first on the path and no COMMIT or
ACCEPT of the host is still ahead of it at the store (log 28); then each lease still to be done is one step: a shared
hold is dropped, with the host's own pending upgrade; an exclusive hold not in transit is stranded, cause DEPARTED;
owner present is cleared in transit; a wait is removed; a grant scan follows where the rule has one. The whole row is
the start and every lease in turn. -/
def Obligations.DirectoryDepartureSteps : Prop :=
  ∀ (s : State) (h : HostId),
    (∀ c k rest, s.dir.path = .departure h c k :: rest → transferAhead h k s.store.path = false →
      let u : State := { s with dir := { s.dir with
        path := rest, joined := upd s.dir.joined h none, departing := upd s.dir.departing h (some ⟨k, allLeases⟩) } }
      exec (.directoryDeparture h .start) s = .next u
        ∧ exec (.directoryDeparture h .whole) s = .next (allLeases.foldl (fun s l => departLease h l s) u))
    ∧ ∀ (p : Departing) (l : LeaseId), s.dir.departing.get h = some p → l ∈ p.due → EntrySound s l →
      let e := s.entry l
      let left := p.due.filter fun x => x ≠ l
      let finish (u : State) : State := { u with
        dir := { u.dir with departing := upd u.dir.departing h (if left = [] then none else some ⟨p.session, left⟩) } }
      exec (.directoryDeparture h (.atLease l)) s = .next (departLease h l s)
      ∧ (HostSet.has e.holders h = true →
          let u := if e.upgrade = some h then s.setWait h none else s
          departLease h l s = finish (grantScan l (u.putEntry l { e with
            state := if HostSet.erase e.holders h = 0#4 then .free else e.state
            holders := HostSet.erase e.holders h
            upgrade := if e.upgrade = some h then none else e.upgrade })).1)
      ∧ (HostSet.has e.holders h = false → e.acts h = true → e.transit = none →
          departLease h l s = finish (e.waiters.foldl (fun s w => s.offerDir w.1 (.stranded l (some h) .departed))
            (s.putEntry l { e with
              state := .stranded, cause := some .departed, transit := none, ownerPresent := false })))
      ∧ (HostSet.has e.holders h = false → e.acts h = true → e.transit ≠ none →
          departLease h l s = finish (s.putEntry l { e with ownerPresent := false }))
      ∧ (HostSet.has e.holders h = false → e.acts h = false → e.hasWaiter h →
          let u := (s.putEntry l { e with waiters := e.waiters.filter fun w => w.1 ≠ h }).setWait h none
          departLease h l s = finish (if e.state = .stranded then u else (grantScan l u).1))
      ∧ (¬ e.hasRole h → departLease h l s = finish s)

/-- Once the directory has taken a host's departure, the host holds no lease, acts as owner of none, waits on none, and
its wait record is empty (R65). -/
def Obligations.DepartedHostHasNoRole : Prop :=
  ∀ (s t : State) (h : HostId) (c : DepartureCause) (k : Nat) (rest : List PathItem), DirectoryOk s →
    s.dir.path = .departure h c k :: rest → transferAhead h k s.store.path = false →
    exec (.directoryDeparture h .whole) s = .next t →
    t.dir.joined.get h = none ∧ t.dir.departing.get h = none ∧ t.wait h = none
      ∧ ∀ l : LeaseId, ¬ (t.entry l).hasRole h

/-- Joins at the three blocks (R6, R138), the departure at the notice unit (R138) and at the port (R175): each block
counts the host JOINED in the session announced; a join at the directory waits while the departure before it is
unfinished (log 10); the notice unit empties the ring and the lost count; the port empties its argument frame and a
standing reply, and keeps a command in flight, overrun, the mask and the mode. -/
def Obligations.JoinsAndDeparturesTaken : Prop :=
  ∀ (s : State) (h : HostId) (k : Nat) (c : DepartureCause),
    (∀ rest, s.dir.path = .join h k :: rest →
      (s.dir.departing.get h = none → exec (.directoryJoin h) s = .next { s with dir := { s.dir with
        path := rest, joined := upd s.dir.joined h (some k) } })
      ∧ (s.dir.departing.get h ≠ none → exec (.directoryJoin h) s = .next s))
    ∧ (∀ rest, takeStoreItem s.store.path = some (.join h k, rest) →
      exec (.storeJoin h) s = .next { s with store := { s.store with
        path := rest, joined := upd s.store.joined h (some k) } })
    ∧ (∀ rest, s.notice.path = .join h k :: rest →
      exec (.noticeUnitJoin h) s = .next { s with notice := { s.notice with
        path := rest, joined := upd s.notice.joined h (some k) } })
    ∧ (∀ rest, s.notice.path = .departure h c k :: rest →
      exec (.noticeUnitDeparture h) s = .next { s with notice := { s.notice with
        path := rest, joined := upd s.notice.joined h none, rings := upd s.notice.rings h []
        lost := upd s.notice.lost h 0 } })
    ∧ ∀ rest, (s.port h).departures = c :: rest →
      exec (.portDeparture h) s = .next { s with ports := upd s.ports h { s.port h with
        departures := rest
        args := []
        replyReady := false
        reply := if (s.port h).replyReady = true then Vector.replicate 8 0#16 else (s.port h).reply
        replyPos := if (s.port h).replyReady = true then 0 else (s.port h).replyPos } }

/-! ## The message store: space -/

/-- SPACE_WAIT (R93, R94, R87): its checks in their order, on a store whose objects read sound. A request that fits while
nobody waits is granted at once; otherwise it is refused QUOTA or NO_SPACE with the store's counts, or queued at the tail
of the list with the deadline loaded. -/
def Obligations.SpaceWaitDecision : Prop :=
  ∀ (s t : State) (h : HostId) (cells wait : Word) (id : Nat),
    s.takeStoreCommand h .spaceWait [cells, wait] = some (id, t) → StoreSound t →
    let n := cells.toNat
    let deadline := if wait.toNat = 65535 then none else some wait.toNat
    let answer (st : Status) (ws : List Word) : Prop := exec (.spaceWait h cells wait) s = .next (t.reply h id st ws)
    let quota : Prop := answer .quota [word (descUsage h t), word (cellUsage h t)]
    let noSpace : Prop := answer .noSpace [word (freeDescs t), word (freeCells t), word t.store.spaceList.length]
    let quotaOk : Prop := descUsage h t + 1 ≤ t.store.descQuota ∧ cellUsage h t + n ≤ t.store.cellQuota
    let poolOk : Prop := 1 ≤ freeDescs t ∧ n ≤ freeCells t
    (15 < n → answer .badArg [])
    ∧ (n ≤ 15 → t.space h ≠ .empty → answer .waiting [])
    ∧ (n ≤ 15 → t.space h = .empty →
      (t.store.cellQuota < n → quota)
      ∧ (n ≤ t.store.cellQuota →
        (t.store.spaceList = [] → quotaOk → poolOk → ∃ d : DescId, lowestFree t = some d
          ∧ exec (.spaceWait h cells wait) s =
            .next ((grantSpace h n t).reply h id .ok [word d.val, cells, word t.settings.spaceHold]))
        ∧ (t.store.spaceList ≠ [] ∨ ¬ quotaOk ∨ ¬ poolOk →
          (wait = 0#16 → ¬ quotaOk → quota)
          ∧ (wait = 0#16 → quotaOk → noSpace)
          ∧ (wait ≠ 0#16 → exec (.spaceWait h cells wait) s = .next (({ t with store := { t.store with
                spaceList := t.store.spaceList ++ [h]
                space := upd t.store.space h (.waiting n deadline) } }).reply h id .queued
              [word (t.store.spaceList.length + 1), cells, wait])))))

/-- The ends of a space wait and of a reservation (R96, R97, R98): SPACE_CANCEL answers NONE on an empty record; it and
the expiry take a wait out of the list, it and the lapse free the reserved descriptor; the record is emptied, the expiry
and the lapse offer their notice, the cancel offers none, and a space scan follows whose grants the cancel reports. The
model's choices: an expiry and a lapse are due at 0 (log 9), the descriptor is not tested (log 15), and its cell count
field is what the reply and SPACE_LAPSED report (log 20). -/
def Obligations.SpaceRecordEnds : Prop :=
  let leave (h : HostId) (s : State) : State := { s with store := { s.store with
    spaceList := s.store.spaceList.filter fun g => g ≠ h, space := upd s.store.space h .empty } }
  (∀ (s t : State) (h : HostId) (id : Nat), s.takeStoreCommand h .spaceCancel [] = some (id, t) →
    (t.space h = .empty → exec (.spaceCancel h) s = .next (t.reply h id .none []))
    ∧ (∀ n k, t.space h = .waiting n k →
      let r := spaceScan (leave h t)
      exec (.spaceCancel h) s = .next (r.1.reply h id .ok [1#16, word n, word r.2]))
    ∧ ∀ d k, t.space h = .reserved d k →
      let r := spaceScan ((freeDesc d t).setSpace h .empty)
      exec (.spaceCancel h) s = .next (r.1.reply h id .ok [2#16, word (t.desc d).cellCount, word r.2]))
  ∧ ∀ (s : State) (h : HostId),
    (∀ n, s.space h = .waiting n (some 0) →
      exec (.spaceWaitExpiry h) s = .next (spaceScan ((leave h s).offerStore h (.spaceExpired n))).1)
    ∧ ∀ d, s.space h = .reserved d 0 → exec (.reservationLapse h) s =
      .next (spaceScan (((freeDesc d s).setSpace h .empty).offerStore h (.spaceLapsed (s.desc d).cellCount))).1

/-- The space scan (R82, R84, R95), on a store whose objects read sound: nothing without a waiter; an entry above
CELL_QUOTA leaves with SPACE_EXPIRED before any grant; then the head is granted while it fits, the rest of the scan
following, and a head that does not fit stops it. A grant takes the lowest FREE descriptor and the lowest free cells. -/
def Obligations.SpaceScanGrantsInOrder : Prop :=
  (∀ s : State, s.store.spaceList = [] → spaceScan s = (s, 0))
  ∧ (∀ s : State, StoreSound s → StoreOk s →
    (∀ pre h post n k, s.store.spaceList = pre ++ h :: post → s.space h = .waiting n k → s.store.cellQuota < n →
      (∀ g ∈ pre, ∀ m j, s.space g = .waiting m j → m ≤ s.store.cellQuota) →
      spaceScan s = spaceScan (({ s with store := { s.store with
        spaceList := pre ++ post, space := upd s.store.space h .empty } }).offerStore h (.spaceExpired n)))
    ∧ ((∀ g m j, s.space g = .waiting m j → m ≤ s.store.cellQuota) →
      ∀ h rest n k, s.store.spaceList = h :: rest → s.space h = .waiting n k →
        let fit : Prop := descUsage h s + 1 ≤ s.store.descQuota ∧ cellUsage h s + n ≤ s.store.cellQuota
          ∧ 1 ≤ freeDescs s ∧ n ≤ freeCells s
        (¬ fit → spaceScan s = (s, 0))
        ∧ (fit → let r := spaceScan (grantSpace h n s)
            spaceScan s = (r.1, r.2 + 1))))
  ∧ (∀ (s : State) (d : DescId), lowestFree s = some d ↔
      (s.desc d).state = .free ∧ ∀ d' < d, (s.desc d').state ≠ .free)
  ∧ ∀ (s : State) (h : HostId) (n k : Nat) (d : DescId), lowestFree s = some d → s.store.joined.get h = some k →
    grantSpace h n s = ({ s with store := { s.store with
      descs := upd s.store.descs d ⟨⟨.reserved, h, k, n, false, none⟩, .sound⟩
      map := mapGiven s d 0 n
      spaceList := s.store.spaceList.filter fun g => g ≠ h
      space := upd s.store.space h (.reserved d s.settings.spaceHold) } }).offerStore h (.spaceReady n)

/-! ## The message store: composing -/

/-- BEGIN refused before its space is looked for (R104, R105): STATE while the caller is assembling; BAD_ARG for an
argument outside the table of R104; NO_PEER, with the destination, when the store does not count it JOINED. -/
def Obligations.BeginRefused : Prop :=
  ∀ (s t : State) (h : HostId) (dest length cls tag fenceLease fenceGen carried : Word) (id : Nat),
    s.takeStoreCommand h .beginMessage [dest, length, cls, tag, fenceLease, fenceGen, carried] = some (id, t) →
    let answer (st : Status) (ws : List Word) : Prop :=
      exec (.beginMessage h dest length cls tag fenceLease fenceGen carried) s = .next (t.reply h id st ws)
    ((t.stream h).assembling ≠ none → answer .state [])
    ∧ ((t.stream h).assembling = none →
      (4 ≤ dest.toNat ∨ dest.toNat = h.val ∨ 240 < length.toNat ∨ 2 ≤ cls.toNat
          ∨ (64 ≤ fenceLease.toNat ∧ fenceLease ≠ 0xFFFF#16) ∨ (64 ≤ carried.toNat ∧ carried ≠ 0xFFFF#16) →
        answer .badArg [])
      ∧ ∀ m, BeginArgs h dest length cls tag fenceLease fenceGen carried m → t.store.joined.get m.dest = none →
        answer .noPeer [dest])

/-- BEGIN without a reservation (R105, R106, R108), on a store whose objects read sound: QUOTA, then NO_SPACE while
anyone waits for space, then NO_SPACE for want of a descriptor or of cells; otherwise the lowest FREE descriptor becomes
ASSEMBLING with the arguments' fields and the lowest free cells. -/
def Obligations.BeginByAdmission : Prop :=
  ∀ (s t : State) (h : HostId) (dest length cls tag fenceLease fenceGen carried : Word) (m : Message) (id : Nat),
    s.takeStoreCommand h .beginMessage [dest, length, cls, tag, fenceLease, fenceGen, carried] = some (id, t) →
    StoreSound t → (t.stream h).assembling = none →
    BeginArgs h dest length cls tag fenceLease fenceGen carried m → t.store.joined.get m.dest ≠ none →
    (∀ d k, t.space h ≠ .reserved d k) →
    let n := (m.length + 15) / 16
    let run := exec (.beginMessage h dest length cls tag fenceLease fenceGen carried) s
    let quotaOk : Prop := descUsage h t + 1 ≤ t.store.descQuota ∧ cellUsage h t + n ≤ t.store.cellQuota
    let poolOk : Prop := 1 ≤ freeDescs t ∧ n ≤ freeCells t
    (¬ quotaOk → run = .next (t.reply h id .quota [word (descUsage h t), word (cellUsage h t)]))
    ∧ (quotaOk → t.store.spaceList ≠ [] ∨ ¬ poolOk → run = .next (t.reply h id .noSpace
        [word (freeDescs t), word (freeCells t), word t.store.spaceList.length]))
    ∧ (quotaOk → t.store.spaceList = [] → poolOk → ∃ d : DescId, lowestFree t = some d
        ∧ ∀ k, t.store.joined.get h = some k → run = .next (({ t with store := { t.store with
            descs := upd t.store.descs d ⟨⟨.assembling, h, k, n, false, some m⟩, .sound⟩
            map := mapGiven t d 0 n
            streams := upd t.store.streams h { t.stream h with assembling := some d } } }).reply h id .ok
          [word n, 0#16, 0#16, word n]))

/-- BEGIN in the caller's reservation (R107, R108): the reserved descriptor becomes ASSEMBLING and the space record is
emptied, the cells kept, the surplus freed with a space scan, or the shortfall taken from the lowest free cells;
NO_SPACE, with the reservation kept, when the shortfall has no room. -/
def Obligations.BeginInReservation : Prop :=
  ∀ (s t : State) (h : HostId) (dest length cls tag fenceLease fenceGen carried : Word) (m : Message) (id : Nat)
      (d : DescId) (k : Nat),
    s.takeStoreCommand h .beginMessage [dest, length, cls, tag, fenceLease, fenceGen, carried] = some (id, t) →
    StoreSound t → (t.stream h).assembling = none →
    BeginArgs h dest length cls tag fenceLease fenceGen carried m → t.store.joined.get m.dest ≠ none →
    t.space h = .reserved d k →
    let n := (m.length + 15) / 16
    let r := (t.desc d).cellCount
    let run := exec (.beginMessage h dest length cls tag fenceLease fenceGen carried) s
    let room : Prop := cellUsage h t + (n - r) ≤ t.store.cellQuota ∧ n - r ≤ freeCells t
    let begun (map : Vector (Coded MapEntry) 128) : State := { t with store := { t.store with
      descs := upd t.store.descs d ⟨⟨.assembling, h, (t.desc d).session, n, false, some m⟩, .sound⟩
      map := map
      streams := upd t.store.streams h { t.stream h with assembling := some d }
      space := upd t.store.space h .empty } }
    (n = r → run = .next ((begun t.store.map).reply h id .ok [word n, 1#16, 0#16, 0#16]))
    ∧ (n < r → run = .next ((spaceScan (begun (mapFreed t d n))).1.reply h id .ok
        [word n, 1#16, word (ownedCells d n t), 0#16]))
    ∧ (r < n → room → run = .next ((begun (mapGiven t d r (n - r))).reply h id .ok
        [word n, 1#16, 0#16, word (n - r)]))
    ∧ (r < n → ¬ room → run = .next (t.reply h id .noSpace
        [word (freeDescs t), word (freeCells t), word t.store.spaceList.length]))

/-- PAY written (R110, R111, R155, R162, R164): the port passes each word on behind the host's command, if one waits
there. The store reads the cell map first, and what it finds there is handled before the word is. It appends the word
to the assembling message, both bytes or the earlier one alone, in the cell of its position, the first word of a cell
clearing the rest of it; every other byte of payload reads as before. A later word into a cell in error has it
corrected and counted, or marks the message damaged and offers FAULT(CELL, c). A position without a cell marks the
message damaged, and a word with no room or no message sets overrun. The model's choices: one lookup reads the whole
cell map (log 13), and the descriptor is not tested and is written with a matching code (log 15). -/
def Obligations.PayWordWritten : Prop :=
  (∀ (s : State) (h : HostId) (w : Word), s.reaches h false .pay = true → (s.record h).state ≠ .offline →
    ((s.port h).unadmitted = none → exec (.payWrite h (.access w)) s =
      .next { s with store := { s.store with path := s.store.path ++ [.pay h w] } })
    ∧ ((s.port h).unadmitted ≠ none → exec (.payWrite h (.access w)) s =
      .next (s.setPort h { s.port h with parked := (s.port h).parked ++ [w] })))
  ∧ ∀ (s : State) (h : HostId) (w : Word) (rest : List StoreItem), takePayWord h s.store.path = some (w, rest) →
    let t : State := { s with store := { s.store with path := rest } }
    let overrun : Prop :=
      exec (.payWrite h .taken) s = .next { t with ports := upd s.ports h { s.port h with overrun := true } }
    ((s.stream h).assembling = none → overrun)
    ∧ ∀ (d : DescId) (m : Message), (s.stream h).assembling = some d → (s.desc d).msg = some m →
      (m.length ≤ m.written → overrun)
      ∧ (m.written < m.length → exec (.payWrite h .taken) s = exec (.payWrite h .taken) (readMap s)
        ∧ ((∀ c, (s.store.map.get c).chk = .sound) → StoreOk s → PayloadOk s →
        let k := m.written
        let two : Prop := k + 2 ≤ m.length
        let x : Descriptor := { s.desc d with msg := some { m with written := if k + 1 = m.length then k + 1 else k + 2 } }
        ((∀ c, s.mapEntry c ≠ .owned d (k / 16)) → exec (.payWrite h .taken) s = .next { t with store := { t.store with
            descs := upd s.store.descs d ⟨{ x with damaged := true }, .sound⟩ } })
        ∧ ∀ c : CellId, s.mapEntry c = .owned d (k / 16) →
          let corrected : Bool := decide (k % 16 ≠ 0 ∧ s.store.cellChk.get c = .correctable)
          let bad : Bool := decide (k % 16 ≠ 0 ∧ s.store.cellChk.get c = .uncorrectable)
          ∃ p : List Host.Cell, exec (.payWrite h .taken) s = .next { t with
              store := { t.store with
                descs := upd s.store.descs d ⟨{ x with damaged := (s.desc d).damaged || bad }, .sound⟩
                payload := p
                cellChk := upd s.store.cellChk c .sound }
              notice := { s.notice with offers := Vector.ofFn fun g => s.notice.offers.get g
                ++ if bad = true ∧ (s.store.joined.get g).isSome = true
                  then [⟨.fault .cell c.val, s.store.joined.get g⟩] else [] }
              settings := { s.settings with
                correctedDue := s.settings.correctedDue + if corrected = true then 1 else 0
                uncorrectedDue := s.settings.uncorrectedDue + if bad = true then 1 else 0 } }
            ∧ Memory.wf p = true
            ∧ Memory.read p (16 * c.val + k % 16) = w.extractLsb' 0 8
            ∧ (two → Memory.read p (16 * c.val + k % 16 + 1) = w.extractLsb' 8 8)
            ∧ (k % 16 = 0 → ∀ o < 16, (two → 2 ≤ o) → 1 ≤ o → Memory.read p (16 * c.val + o) = 0#8)
            ∧ ∀ a, a < 16 * c.val ∨ 16 * c.val + 16 ≤ a ∨ (k % 16 ≠ 0 ∧ a ≠ 16 * c.val + k % 16
                ∧ ¬ (two ∧ a = 16 * c.val + k % 16 + 1)) → Memory.read p a = Memory.read s.store.payload a))

/-- PAY read (R121, R155, R162, R164, R174): 0 with overrun while BUSY, at the end of the message, or with none open;
nothing while work of the host is still on its way to the store (log 21); otherwise the store reads the cell map, and
what it finds there is handled before the word is; the next one or two bytes of the open message, the earlier in the
low byte, with the position raised; 0 with the message marked damaged where the position has lost its cell. A cell
with one bit in error is corrected and counted; an uncorrectable one gives its bytes as stored, marks the message
damaged, offers FAULT(CELL, c), and stays as it is. The model's choices: one lookup reads the whole cell map (log 13),
and the open descriptor is not tested and is written with a matching code when damaged (log 15). -/
def Obligations.PayWordRead : Prop :=
  ∀ (s : State) (h : HostId), s.reaches h true .pay = true → (s.record h).state ≠ .offline →
    let overrun : Prop := exec (.payRead h) s = .next ((s.setPort h { s.port h with overrun := true }).returnWord h 0#16)
    ((s.port h).busy = true → overrun)
    ∧ ((s.port h).busy = false → payReadWaits h s = true → exec (.payRead h) s = .next s)
    ∧ ((s.port h).busy = false → payReadWaits h s = false →
      ((s.stream h).openDesc = none → overrun)
      ∧ ∀ (d : DescId) (m : Message), (s.stream h).openDesc = some d → (s.desc d).msg = some m →
        let k := (s.stream h).readPos
        (m.length ≤ k → overrun)
        ∧ (k < m.length → exec (.payRead h) s = exec (.payRead h) (readMap s)
          ∧ ((∀ c, (s.store.map.get c).chk = .sound) → StoreOk s →
          let r : StreamRecord := { s.stream h with readPos := if k + 1 = m.length then k + 1 else k + 2 }
          ((∀ c, s.mapEntry c ≠ .owned d (k / 16)) → exec (.payRead h) s =
            .next (((s.putDesc d { s.desc d with damaged := true }).setStream h r).returnWord h 0#16))
          ∧ ∀ c : CellId, s.mapEntry c = .owned d (k / 16) →
            let u : State := match s.store.cellChk.get c with
              | .sound => s
              | .correctable => { s with
                  store := { s.store with cellChk := upd s.store.cellChk c .sound }
                  settings := { s.settings with correctedDue := s.settings.correctedDue + 1 } }
              | .uncorrectable => withFault .cell c.val (s.putDesc d { s.desc d with damaged := true })
            ∃ w : Word, exec (.payRead h) s = .next ((u.setStream h r).returnWord h w)
              ∧ w.extractLsb' 0 8 = Memory.read s.store.payload (16 * c.val + k % 16)
              ∧ w.extractLsb' 8 8 = if k + 1 = m.length then 0#8
                else Memory.read s.store.payload (16 * c.val + k % 16 + 1))))

/-- COMMIT refused (R112, R113): its checks in their order: NONE, SHORT, NO_PEER, QUEUE_FULL, then at the directory
STALE, NOT_HOLDER and IN_TRANSIT; each leaves the message and the leases as they are. A fence or carried lease found
uncorrectable is rebuilt, the COMMIT answered DAMAGED, and the message stays as it is. An assembling descriptor found
uncorrectable is lost (R161) and the COMMIT answered DAMAGED: it returns to FREE with its cells, FAULT(DESCRIPTOR, index)
is offered to every host that the store counts JOINED, the finding goes to be counted, and a space scan follows. -/
def Obligations.CommitRefusedOrLost : Prop :=
  ∀ (s t : State) (h : HostId) (id : Nat), s.takeTransferCommand h .commit = some (id, t) →
    let answer (st : Status) (ws : List Word) : Prop := exec (.commit h) s = .next (t.reply h id st ws)
    ((t.stream h).assembling = none → answer .none [])
    ∧ (∀ d : DescId, (t.stream h).assembling = some d → (t.store.descs.get d).chk = .uncorrectable →
      (∀ c, (t.store.map.get c).chk = .sound) → (∀ l, EntrySound t l ∧ (t.entry l).transit.map Transit.desc ≠ some d) →
      let u := freeDesc d t
      exec (.commit h) s = .next ((spaceScan { u with
        notice := { u.notice with offers := Vector.ofFn fun g => u.notice.offers.get g
          ++ if (u.store.joined.get g).isSome = true then [⟨.fault .descriptor d.val, u.store.joined.get g⟩] else [] }
        settings := { u.settings with uncorrectedDue := u.settings.uncorrectedDue + 1 } }).1.reply h id .damaged []))
    ∧ ∀ (d : DescId) (m : Message), (t.stream h).assembling = some d → (t.desc d).msg = some m → StoreSound t →
      (m.written ≠ m.length → answer .short [word m.written, word m.length])
      ∧ (m.written = m.length →
        (t.store.joined.get m.dest = none → answer .noPeer [word m.dest.val])
        ∧ (t.store.joined.get m.dest ≠ none →
          (t.store.inboundLimit ≤ (t.queue m.dest).length → answer .queueFull [word t.store.inboundLimit])
          ∧ ((t.queue m.dest).length < t.store.inboundLimit →
            (∀ l : LeaseId, (m.fence.map Prod.fst = some l ∨ m.carried = some l) →
              (t.dir.entries.get l).chk = .uncorrectable →
              (∀ l', m.fence.map Prod.fst = some l' ∨ m.carried = some l' → l' ≠ l → EntrySound t l') →
              exec (.commit h) s = .next (((rebuildEntry l t).dirFinding l).reply h id .damaged []))
            ∧ ((∀ l g, m.fence = some (l, g) → EntrySound t l) → (∀ l, m.carried = some l → EntrySound t l) →
            let current : Prop := ∀ l g, m.fence = some (l, g) →
              (t.entry l).generation = g ∧ (HostSet.has (t.entry l).holders h = true ∨ (t.entry l).acts h = true)
            (∀ l g, m.fence = some (l, g) → ¬ current →
              answer .stale [word l.val, (t.entry l).generation,
                if HostSet.has (t.entry l).holders h = true ∨ (t.entry l).acts h = true then 1#16 else 0#16])
            ∧ (current → ∀ l, m.carried = some l →
              ((t.entry l).acts h = false → answer .notHolder [word l.val])
              ∧ ((t.entry l).acts h = true → (t.entry l).transit ≠ none → answer .inTransit [word l.val]))))))

/-- COMMIT of a message that passes every check (R113, R114): the descriptor is QUEUED at the tail of its class in its
destination's queue, the caller assembles no longer, and a carried lease enters transit, with the descriptor, the
recipient and owner present recorded and its state, owner, generation, value and waiters kept. The reply names the
descriptor, the lease and its generation or FFFFh, and the cell count. -/
def Obligations.CommitPlacesMessage : Prop :=
  ∀ (s t : State) (h : HostId) (id : Nat) (d : DescId) (m : Message),
    s.takeTransferCommand h .commit = some (id, t) →
    (t.stream h).assembling = some d → (t.desc d).msg = some m → StoreSound t →
    m.written = m.length → t.store.joined.get m.dest ≠ none → (t.queue m.dest).length < t.store.inboundLimit →
    (∀ l g, m.fence = some (l, g) → EntrySound t l ∧ (t.entry l).generation = g
      ∧ (HostSet.has (t.entry l).holders h = true ∨ (t.entry l).acts h = true)) →
    let q := t.store.inbound.get m.dest
    let placed (u : State) : State := { u with store := { t.store with
      descs := upd t.store.descs d ⟨{ t.desc d with state := .queued }, .sound⟩
      streams := upd t.store.streams h { t.stream h with assembling := none }
      inbound := upd t.store.inbound m.dest (match m.cls with
        | .urgent => ⟨q.urgent ++ [d], q.normal⟩
        | .normal => ⟨q.urgent, q.normal ++ [d]⟩) } }
    (m.carried = none → exec (.commit h) s = .next ((placed t).reply h id .ok
        [word d.val, 0xFFFF#16, 0xFFFF#16, word (t.desc d).cellCount]))
    ∧ ∀ l : LeaseId, m.carried = some l → EntrySound t l → (t.entry l).acts h = true → (t.entry l).transit = none →
      exec (.commit h) s =
        .next ((placed (t.putEntry l { t.entry l with transit := some ⟨d, m.dest⟩, ownerPresent := true })).reply h id
          .ok [word d.val, word l.val, (t.entry l).generation, word (t.desc d).cellCount])

/-- ABANDON and UNWIND (R116, R117, R125, R85): NONE to ABANDON without a message; otherwise the assembling descriptor
returns to FREE with its cells, nothing offered, and a space scan follows; UNWIND puts the open message back as QUEUED
where it stands, with the read position at 0, as well. A descriptor returned to FREE frees every cell it owns, has every
field cleared, and is named by no queue, stream or space record any longer. An UNWIND whose read finds either descriptor
uncorrectable is answered DAMAGED, and that descriptor is lost (R161): it returns to FREE, FAULT(DESCRIPTOR, index) is
offered, the finding goes to be counted, and the lease whose transit record names it returns to a sender still present or
is stranded, cause HANDOFF, with STRANDED offered to each waiter; a space scan follows. -/
def Obligations.AbandonAndUnwind : Prop :=
  (∀ (s t : State) (h : HostId) (id : Nat), s.takeStoreCommand h .abandon [] = some (id, t) →
    ((t.stream h).assembling = none → exec (.abandon h) s = .next (t.reply h id .none []))
    ∧ ∀ d m, (t.stream h).assembling = some d → (t.desc d).msg = some m → StoreSound t →
      exec (.abandon h) s = .next ((spaceScan (freeDesc d t)).1.reply h id .ok
        [word (ownedCells d 0 t), word m.written]))
  ∧ (∀ (s t : State) (h : HostId) (id : Nat), s.takeStoreCommand h .unwind [] = some (id, t) → StoreSound t →
    let opened : Word := if (t.stream h).openDesc = none then 0#16 else 1#16
    let back (u : State) : State := match (t.stream h).openDesc with
      | none => u
      | some o => (u.putDesc o { t.desc o with state := .queued }).setStream h
          { u.stream h with openDesc := none, readPos := 0 }
    ((t.stream h).assembling = none → exec (.unwind h) s = .next ((back t).reply h id .ok [0#16, opened, 0#16]))
    ∧ ∀ d, (t.stream h).assembling = some d → StoreOk t → exec (.unwind h) s =
      .next ((spaceScan (back (freeDesc d t))).1.reply h id .ok [1#16, opened, word (ownedCells d 0 t)]))
  ∧ (∀ (s t : State) (h : HostId) (id : Nat) (d : DescId), s.takeStoreCommand h .unwind [] = some (id, t) →
    ((t.stream h).assembling = some d ∨ (t.stream h).openDesc = some d) → (t.store.descs.get d).chk = .uncorrectable →
    (∀ d', (t.stream h).assembling = some d' ∨ (t.stream h).openDesc = some d' → d' ≠ d →
      (t.store.descs.get d').chk = .sound) →
    exec (.unwind h) s = .next ((spaceScan (loseDescCore d t)).1.reply h id .damaged []))
  ∧ (∀ (s : State) (d : DescId), (∀ c, (s.store.map.get c).chk = .sound) → (∀ l, EntrySound s l) →
    let u := withFault .descriptor d.val (freeDesc d s)
    ((∀ l, (s.entry l).transit.map Transit.desc ≠ some d) → loseDescCore d s = u)
    ∧ ∀ l, (s.entry l).transit.map Transit.desc = some d →
      (∀ l', l' ≠ l → (s.entry l').transit.map Transit.desc ≠ some d) →
      let e := s.entry l
      (e.ownerPresent = true → loseDescCore d s = u.putEntry l { e with transit := none, ownerPresent := false })
      ∧ (e.ownerPresent = false → loseDescCore d s =
        e.waiters.foldl (fun v w => v.offerDir w.1 (.stranded l e.owner .handoff))
          (u.putEntry l { e with state := .stranded, cause := some .handoff, transit := none })))
  ∧ ∀ (s : State) (d : DescId), (∀ c, (s.store.map.get c).chk = .sound) → freeDesc d s = { s with store := { s.store with
      descs := upd s.store.descs d ⟨⟨.free, 0, 0, 0, false, none⟩, .sound⟩
      map := mapFreed s d 0
      inbound := s.store.inbound.map fun q => ⟨q.urgent.filter fun x => x ≠ d, q.normal.filter fun x => x ≠ d⟩
      streams := s.store.streams.map fun r => { r with
        assembling := if r.assembling = some d then none else r.assembling
        openDesc := if r.openDesc = some d then none else r.openDesc }
      space := s.store.space.map fun r => match r with
        | .reserved d' k => if d' = d then .empty else .reserved d' k
        | .empty => .empty
        | .waiting n k => .waiting n k } }

/-! ## The message store: receiving -/

/-- OPEN (R119, R120, R159, R163): STATE with a message open, NONE on an empty queue; otherwise the head of the queue
is OPEN where it stands, with the read position at 0. A head that has lost a cell is marked damaged, one that has lost
every cell is discarded, bounced LOST and answered DAMAGED. A head whose descriptor is found uncorrectable is lost
(R161), and a fence or carried lease found uncorrectable is rebuilt (R120) with the message left QUEUED: both answer
DAMAGED. The reply shows the source with its session, the tag, the length, the fence, the lease still carried, and the
class, fence current, damaged and index bits. -/
def Obligations.OpenTakesHead : Prop :=
  ∀ (s t : State) (h : HostId) (id : Nat), s.takeStoreCommand h .openMessage [] = some (id, t) →
    ((t.stream h).openDesc ≠ none → exec (.openMessage h) s = .next (t.reply h id .state []))
    ∧ ((t.stream h).openDesc = none → t.queue h = [] → exec (.openMessage h) s = .next (t.reply h id .none []))
    ∧ ((t.stream h).openDesc = none → ∀ (d : DescId) (rest : List DescId), t.queue h = d :: rest →
      (t.store.descs.get d).chk = .uncorrectable →
      exec (.openMessage h) s = .next ((spaceScan (loseDescCore d t)).1.reply h id .damaged []))
    ∧ ((t.stream h).openDesc = none → ∀ (d : DescId) (rest : List DescId) (m : Message),
      t.queue h = d :: rest → (t.desc d).msg = some m → StoreSound t →
      let x := t.desc d
      let lost (p : Nat) : Bool := allCells.all fun c => decide (t.mapEntry c ≠ .owned d p)
      let damaged : Bool := x.damaged || (List.range x.cellCount).any lost
      let carried : Option LeaseId := m.carried.filter fun l => decide ((t.entry l).transit.map Transit.desc = some d)
      let current : Bool := m.fence.any fun f => decide ((t.entry f.1).generation = f.2)
      (m.length = 0 ∨ (∃ p < x.cellCount, lost p = false) →
        ∀ l : LeaseId, (m.fence.map Prod.fst = some l ∨ m.carried = some l) →
        (t.dir.entries.get l).chk = .uncorrectable →
        (∀ l', m.fence.map Prod.fst = some l' ∨ m.carried = some l' → l' ≠ l → EntrySound t l') →
        let u := if (List.range x.cellCount).any lost = true then t.putDesc d { x with damaged := true } else t
        exec (.openMessage h) s = .next (((rebuildEntry l u).dirFinding l).reply h id .damaged []))
      ∧ ((∀ l g, m.fence = some (l, g) → EntrySound t l) → (∀ l, m.carried = some l → EntrySound t l) →
      (0 < m.length → (∀ p < x.cellCount, lost p = true) →
        let r := failCarried d m t
        exec (.openMessage h) s = .next ((spaceScan (bounce x m .lost (returnedLease m.carried r.1)
          (freeDesc d r.2))).1.reply h id .damaged []))
      ∧ (m.length = 0 ∨ (∃ p < x.cellCount, lost p = false) →
        exec (.openMessage h) s = .next (({ t with store := { t.store with
            descs := upd t.store.descs d
              ⟨{ x with state := .opened, damaged := damaged, msg := some { m with carried := carried } }, .sound⟩
            streams := upd t.store.streams h { t.stream h with openDesc := some d, readPos := 0 } } }).reply h id .ok
          [word (x.source.val + 256 * x.session), m.tag, word m.length, optLeaseWord (m.fence.map Prod.fst),
            (m.fence.map Prod.snd).getD 0#16, optLeaseWord carried,
            word ((if m.cls = MsgClass.urgent then 1 else 0) + (if current then 2 else 0) + (if damaged then 4 else 0)
              + 256 * d.val)]))))

/-- ACCEPT (R123, R129, R130, R159): NONE with nothing open; otherwise the message is freed and a space scan follows. A
lease that its transit record carries in this message becomes EXCLUSIVE under the caller at the next generation, with the
caller's own claim wait on it removed and HANDED offered to a sender still present; the value and the other waiters stay.
A lease entry found uncorrectable is rebuilt, the carried-lease field cleared, and the reply is DAMAGED; so it is when
the descriptor is found uncorrectable, which is then lost (R161). -/
def Obligations.AcceptTakesMessage : Prop :=
  ∀ (s t : State) (h : HostId) (id : Nat), s.takeTransferCommand h .accept = some (id, t) →
    ((t.stream h).openDesc = none → exec (.accept h) s = .next (t.reply h id .none []))
    ∧ (∀ d : DescId, (t.stream h).openDesc = some d → (t.store.descs.get d).chk = .uncorrectable →
      exec (.accept h) s = .next ((spaceScan (loseDescCore d t)).1.reply h id .damaged []))
    ∧ ∀ (d : DescId) (m : Message), (t.stream h).openDesc = some d → (t.desc d).msg = some m → StoreSound t →
      let flag : Word := if (t.desc d).damaged = true then 1#16 else 0#16
      let done (u : State) (ws : List Word) : Prop :=
        exec (.accept h) s = .next ((spaceScan (freeDesc d u)).1.reply h id .ok ws)
      (m.carried = none → done t [0#16, 0xFFFF#16, 0xFFFF#16, flag, 0#16, 0#16, 0#16])
      ∧ ∀ l : LeaseId, m.carried = some l →
        ((t.dir.entries.get l).chk = .uncorrectable → exec (.accept h) s =
          .next ((((rebuildEntry l t).dirFinding l).putDesc d
            { t.desc d with msg := some { m with carried := none } }).reply h id .damaged []))
        ∧ (EntrySound t l →
          let e := t.entry l
          (e.transit.map Transit.desc ≠ some d → done t [0#16, 0xFFFF#16, 0xFFFF#16, flag, 0#16, 0#16, 0#16])
          ∧ (e.transit.map Transit.desc = some d → ∃ v1 v0 : Word,
            e.value.toNat = v1.toNat * 65536 + v0.toNat
            ∧ let g := e.generation + 1#16
              let waited : Bool := match t.wait h with
                | some r => decide (r.lease = l ∧ r.kind ≠ .upgrade)
                | none => false
              let u := t.putEntry l { e with
                state := .exclusive, owner := some h, holders := 0#4, generation := g, transit := none
                ownerPresent := false, waiters := e.waiters.filter fun w => w.1 ≠ h }
              let u := if waited then u.setWait h none else u
              let ws := [1#16, word l.val, g, flag, v1, v0, if waited then 1#16 else 0#16]
              (∀ sender, e.owner = some sender → e.ownerPresent = true →
                done (u.offerDir sender (.handed l h g)) ws)
              ∧ (e.ownerPresent = false → done u ws)))

/-- REFUSE (R124, R126, R131, R73, R159): NONE with nothing open; otherwise the message is freed, bounced REFUSED to the
source counted in its source session, and a space scan follows. A lease that its transit record carries in this message
returns to a sender still present, and the bounce carries it; without one it is stranded, cause HANDOFF, and each waiter
is offered STRANDED. An entry found uncorrectable is rebuilt and the reply is DAMAGED; so it is when the descriptor is
found uncorrectable, which is then lost (R161). -/
def Obligations.RefuseSendsBack : Prop :=
  ∀ (s t : State) (h : HostId) (id : Nat), s.takeStoreCommand h .refuse [] = some (id, t) →
    ((t.stream h).openDesc = none → exec (.refuse h) s = .next (t.reply h id .none []))
    ∧ (∀ d : DescId, (t.stream h).openDesc = some d → (t.store.descs.get d).chk = .uncorrectable →
      exec (.refuse h) s = .next ((spaceScan (loseDescCore d t)).1.reply h id .damaged []))
    ∧ ∀ (d : DescId) (m : Message), (t.stream h).openDesc = some d → (t.desc d).msg = some m → StoreSound t →
      let x := t.desc d
      let passed : Bool := decide (t.store.joined.get x.source = some x.session)
      let done (u : State) (code lease : Word) (back : Option LeaseId) : Prop :=
        let v := freeDesc d u
        let v := if passed then v.offerStore x.source (.bounced m.tag m.dest .refused back) else v
        exec (.refuse h) s = .next ((spaceScan v).1.reply h id .ok [code, lease, if passed then 1#16 else 0#16])
      (m.carried = none → done t 0#16 0xFFFF#16 none)
      ∧ ∀ l : LeaseId, m.carried = some l →
        ((t.dir.entries.get l).chk = .uncorrectable → exec (.refuse h) s =
          .next ((((rebuildEntry l t).dirFinding l).putDesc d
            { t.desc d with msg := some { m with carried := none } }).reply h id .damaged []))
        ∧ (EntrySound t l →
          let e := t.entry l
          (e.transit.map Transit.desc ≠ some d → done t 0#16 0xFFFF#16 none)
          ∧ (e.transit.map Transit.desc = some d → e.ownerPresent = true →
            done (t.putEntry l { e with transit := none, ownerPresent := false }) 1#16 (word l.val) (some l))
          ∧ (e.transit.map Transit.desc = some d → e.ownerPresent = false →
            done (e.waiters.foldl (fun u w => u.offerDir w.1 (.stranded l e.owner .handoff))
              (t.putEntry l { e with state := .stranded, cause := some .handoff, transit := none }))
              2#16 (word l.val) none))

/-- The store's part of a departure (R101, R127), on a store whose objects read sound: the host is counted out, its
space wait or reservation goes, its assembling message is freed in silence, every message of its queue is freed with
its carried transfer failed and a bounce DEST_DEPARTED, and a single space scan runs. The read position keeps its
number, which is the model's choice (log 35); so is the one scan after losses (log 19). -/
def Obligations.StoreDepartureParts : Prop :=
  ∀ (s : State) (h : HostId) (c : DepartureCause) (k : Nat) (rest : List StoreItem),
    takeStoreItem s.store.path = some (.departure h c k, rest) → StoreSound s → StoreOk s →
    let t0 : State := { s with store := { s.store with path := rest, joined := upd s.store.joined h none } }
    let t1 : State := match s.space h with
      | .empty => t0
      | .waiting _ _ => { t0 with store := { t0.store with
          spaceList := s.store.spaceList.filter fun g => g ≠ h, space := upd s.store.space h .empty } }
      | .reserved d _ => (freeDesc d t0).setSpace h .empty
    let t2 : State := match (s.stream h).assembling with
      | none => t1
      | some d => freeDesc d t1
    let discard (u : State) (d : DescId) : State := match (s.desc d).msg with
      | none => u
      | some m => bounce (s.desc d) m .destDeparted (returnedLease m.carried (failCarried d m u).1)
          (freeDesc d (failCarried d m u).2)
    let t3 := (s.queue h).foldl discard t2
    exec (.storeDeparture h) s = .next (spaceScan (t3.setStream h ⟨none, none, (s.stream h).readPos⟩)).1

/-- Once the store has taken a host's departure, the host has no space wait, no reservation, no RESERVED or ASSEMBLING
descriptor, nothing in its inbound queue, and no stream (R101); bit errors found on the way change none of it. -/
def Obligations.DepartedHostLeavesStore : Prop :=
  ∀ (s t : State) (h : HostId) (c : DepartureCause) (k : Nat) (rest : List StoreItem), StoreOk s →
    takeStoreItem s.store.path = some (.departure h c k, rest) → exec (.storeDeparture h) s = .next t →
    t.store.joined.get h = none ∧ t.space h = .empty ∧ h ∉ t.store.spaceList ∧ t.queue h = []
      ∧ (t.stream h).assembling = none ∧ (t.stream h).openDesc = none
      ∧ ∀ d : DescId, (t.desc d).source = h → (t.desc d).state ≠ .reserved ∧ (t.desc d).state ≠ .assembling

/-! ## Settings and counts -/

/-- SET_PARAM and the store's taking of a change (R148, R149, R150): CHARTER to all but the acting owner of L0, then
BAD_ARG for an unknown id or a value outside its range; an L0 with one bit in error is corrected and the check goes on,
an uncorrectable one is rebuilt and the reply is DAMAGED; otherwise the value is recorded, and answered with the id, the
value before and the new one: at once, or for settings 2 to 4 when the store has taken the change handed to it, with a
space scan for a quota. -/
def Obligations.SetParamRecordsValue : Prop :=
  (∀ (s t : State) (h : HostId) (param value : Word) (id : Nat),
    s.takeSettingsCommand h .setParam [param, value] = some (id, t) →
    let answer (st : Status) : Prop := exec (.setParam h param value) s = .next (t.reply h id st [])
    ((t.dir.entries.get 0).chk = .correctable → exec (.setParam h param value) s =
      exec (.setParam h param value) ((s.putEntry 0 (s.entry 0)).raiseCorrected))
    ∧ ((t.dir.entries.get 0).chk = .uncorrectable → exec (.setParam h param value) s =
      .next (((rebuildEntry 0 t).dirFinding 0).reply h id .damaged []))
    ∧ (EntrySound t 0 → (t.entry 0).acts h = false → answer .charter)
    ∧ (EntrySound t 0 → (t.entry 0).acts h = true →
      (6 ≤ param.toNat → answer .badArg)
      ∧ ∀ x : Setting, param.toNat = x.number →
        (value.toNat < x.low ∨ x.high < value.toNat → answer .badArg)
        ∧ (x.low ≤ value.toNat → value.toNat ≤ x.high →
          let u := t.setSetting x value.toNat
          (x = .tickDiv ∨ x = .presenceTerm ∨ x = .spaceHold → exec (.setParam h param value) s =
            .next (u.reply h id .ok [param, word (t.setting x), value]))
          ∧ (x = .descQuota ∨ x = .cellQuota ∨ x = .inboundLimit → exec (.setParam h param value) s =
            .next { u with store := { u.store with
              changes := t.store.changes ++ [⟨x, t.setting x, value.toNat, h, id⟩] } }))))
  ∧ ∀ (s : State) (c : SettingChange) (rest : List SettingChange), s.store.changes = c :: rest →
    let ws := [word c.setting.number, word c.old, word c.value]
    (c.setting = .descQuota → exec .storeSettingChange s = .next ((spaceScan { s with store := { s.store with
        changes := rest, descQuota := c.value } }).1.reply c.host c.id .ok ws))
    ∧ (c.setting = .cellQuota → exec .storeSettingChange s = .next ((spaceScan { s with store := { s.store with
        changes := rest, cellQuota := c.value } }).1.reply c.host c.id .ok ws))
    ∧ (c.setting = .inboundLimit → exec .storeSettingChange s = .next (({ s with store := { s.store with
        changes := rest, inboundLimit := c.value } }).reply c.host c.id .ok ws))

/-- READ_PARAM (R151): BAD_ARG, with the status word alone, for an id above 5; otherwise OK with the id, the value as the
settings block recorded it, and the range and the default of the setting. -/
def Obligations.ReadParamReportsSetting : Prop :=
  ∀ (s t : State) (h : HostId) (param : Word) (id : Nat), s.takeSettingsCommand h .readParam [param] = some (id, t) →
    (6 ≤ param.toNat → exec (.readParam h param) s = .next (t.reply h id .badArg []))
    ∧ (param = 0#16 → exec (.readParam h param) s = .next (t.reply h id .ok
        [0#16, word s.settings.tickDiv, 100#16, 65535#16, 25000#16]))
    ∧ (param = 1#16 → exec (.readParam h param) s = .next (t.reply h id .ok
        [1#16, word s.settings.presenceTerm, 10#16, 60000#16, 2000#16]))
    ∧ (param = 2#16 → exec (.readParam h param) s = .next (t.reply h id .ok
        [2#16, word s.settings.descQuota, 1#16, 48#16, 16#16]))
    ∧ (param = 3#16 → exec (.readParam h param) s = .next (t.reply h id .ok
        [3#16, word s.settings.cellQuota, 1#16, 128#16, 48#16]))
    ∧ (param = 4#16 → exec (.readParam h param) s = .next (t.reply h id .ok
        [4#16, word s.settings.inboundLimit, 1#16, 48#16, 24#16]))
    ∧ (param = 5#16 → exec (.readParam h param) s = .next (t.reply h id .ok
        [5#16, word s.settings.spaceHold, 1#16, 60000#16, 500#16]))

/-- The error counts (R153, R154) and DEVICE_STATUS (R152). A corrected error and an uncorrectable finding each raise
their count by one up to 65535 and 255. CLEAR_COUNTS is refused CHARTER to all but the acting owner of L0, and
otherwise reports both counts and clears them; an L0 in error is corrected, or rebuilt and answered DAMAGED (R150),
and that correction is counted after the clear (the model's choice, log 36). DEVICE_STATUS reads the whole cell map,
and not the descriptors (log 14): a map entry with one bit in error is corrected and counted; an uncorrectable one is
retired, with FAULT(CELL_MAP, c) offered to every host that the store counts JOINED (R156, R157, R162). On the state
after these reads it reports the cells, the descriptors, the counts, the joined host set and revision 1, all at one
moment (log 34). -/
def Obligations.CountsAndDeviceStatus : Prop :=
  (∀ (s : State) (n : Nat), s.settings.correctedDue = n + 1 → exec .correctedCount s = .next { s with
      settings := { s.settings with correctedDue := n, corrected := min 65535 (s.settings.corrected + 1) } })
  ∧ (∀ (s : State) (n : Nat), s.settings.uncorrectedDue = n + 1 → exec .uncorrectedCount s = .next { s with
      settings := { s.settings with uncorrectedDue := n, uncorrected := min 255 (s.settings.uncorrected + 1) } })
  ∧ (∀ (s t : State) (h : HostId) (id : Nat), s.takeSettingsCommand h .clearCounts [] = some (id, t) →
    ((t.dir.entries.get 0).chk = .correctable → exec (.clearCounts h) s =
      exec (.clearCounts h) ((s.putEntry 0 (s.entry 0)).raiseCorrected))
    ∧ ((t.dir.entries.get 0).chk = .uncorrectable → exec (.clearCounts h) s =
      .next (((rebuildEntry 0 t).dirFinding 0).reply h id .damaged []))
    ∧ (EntrySound t 0 → (t.entry 0).acts h = false → exec (.clearCounts h) s = .next (t.reply h id .charter []))
    ∧ (EntrySound t 0 → (t.entry 0).acts h = true → exec (.clearCounts h) s =
      .next (({ t with settings := { t.settings with corrected := 0, uncorrected := 0 } }).reply h id .ok
        [word s.settings.corrected, word s.settings.uncorrected])))
  ∧ (∀ (s t : State) (h : HostId) (id : Nat), s.takeSettingsCommand h .deviceStatus [] = some (id, t) →
    let u := readMap t
    ∃ w : Word,
      exec (.deviceStatus h) s = .next (u.reply h id .ok
        [word (allCells.countP fun c => u.mapEntry c = .free), word (allDescs.countP fun d => (t.desc d).state = .free),
          word (allCells.countP fun c => u.mapEntry c = .retired), word s.settings.corrected,
          word s.settings.uncorrected, w, 1#16])
      ∧ (∀ g : HostId, w.getLsbD g.val = decide ((s.record g).state = .joined)) ∧ w.extractLsb' 4 12 = 0#12)
  ∧ ∀ s : State,
    let one (c : CellId) : Bool := decide ((s.store.map.get c).chk = .correctable)
    let two (c : CellId) : Bool := decide ((s.store.map.get c).chk = .uncorrectable)
    readMap s = { s with
      store := { s.store with map := Vector.ofFn fun c => ⟨if two c = true then .retired else s.mapEntry c, .sound⟩ }
      notice := { s.notice with offers := Vector.ofFn fun g => s.notice.offers.get g
        ++ if (s.store.joined.get g).isSome = true
          then (allCells.filter two).map fun c => ⟨.fault .cellMap c.val, s.store.joined.get g⟩ else [] }
      settings := { s.settings with
        correctedDue := s.settings.correctedDue + allCells.countP one
        uncorrectedDue := s.settings.uncorrectedDue + allCells.countP two } }

/-! ## Notices -/

/-- Notices at a ring (R136, R137, R138, R139). An offer to a host counted JOINED is entered at the tail of a ring
below 8, or counted lost up to 255; one to a host not counted JOINED is discarded. So is, by the model's reading of
R138 (log 6), a notice of the host's leases, messages or space made in a session that the notice unit has counted out:
neither the one it counts nor one whose join is still to come. PEER_JOINED, PEER_DEPARTED and FAULT are decided by the
count and the ring alone. NEXT_NOTICE takes the oldest record and clears the lost count, which its reply reports with
the kind, the records left, the presence word and the fields; on an empty ring it answers NONE with the lost count in
word 7. -/
def Obligations.NoticesEnterAndLeave : Prop :=
  (∀ (s : State) (h : HostId) (k : Nat) (o : Offer), (s.notice.offers.get h)[k]? = some o →
    let t : State := { s with notice := { s.notice with
      offers := upd s.notice.offers h ((s.notice.offers.get h).eraseIdx k) } }
    let own : Prop := match o.notice with
      | .peerJoined .. | .peerDeparted .. | .fault .. => False
      | .granted .. | .waitExpired .. | .stranded .. | .handed .. | .bounced .. => True
      | .spaceReady .. | .spaceExpired .. | .spaceLapsed .. => True
    (s.notice.joined.get h = none → exec (.noticeOffer h k) s = .next t)
    ∧ (∀ n j, s.notice.joined.get h = some n → own → o.session = some j → j ≠ n → .join h j ∉ s.notice.path →
      exec (.noticeOffer h k) s = .next t)
    ∧ (∀ n, s.notice.joined.get h = some n →
      (own → ∀ j, o.session = some j → j = n ∨ .join h j ∈ s.notice.path) →
      ((s.ring h).length < 8 → exec (.noticeOffer h k) s = .next { t with notice := { t.notice with
        rings := upd s.notice.rings h (s.ring h ++ [o.notice]) } })
      ∧ (8 ≤ (s.ring h).length → exec (.noticeOffer h k) s = .next { t with notice := { t.notice with
        lost := upd s.notice.lost h (min 255 (s.lost h + 1)) } })))
  ∧ ∀ (s t : State) (h : HostId) (id : Nat), s.takeNoticeCommand h .nextNotice [] = some (id, t) →
    let cleared : State := { t with notice := { t.notice with lost := upd t.notice.lost h 0 } }
    (t.ring h = [] → exec (.nextNotice h) s = .next (cleared.reply h id .none
      [0#16, 0#16, 0#16, 0#16, 0#16, 0#16, word (t.lost h)]))
    ∧ ∀ n rest, t.ring h = n :: rest → rest.length ≤ 7 → ∃ w1 w2 f1 f2 f3 f4 : Word,
      exec (.nextNotice h) s = .next (({ cleared with notice := { cleared.notice with
          rings := upd t.notice.rings h rest } }).reply h id .ok [w1, w2, f1, f2, f3, f4, word (t.lost h)])
      ∧ w1.extractLsb' 0 8 = BitVec.ofNat 8 n.kindCode ∧ w1.extractLsb' 8 4 = BitVec.ofNat 4 rest.length
      ∧ w1.extractLsb' 12 4 = 0#4 ∧ w2.extractLsb' 4 12 = 0#12
      ∧ ∀ i : Fin 4, let f := [f1, f2, f3, f4].getD i.val 0#16
        match n.fields[i.val]? with
        | none => w2.getLsbD i.val = false ∧ f = 0#16
        | some none => w2.getLsbD i.val = false ∧ f = 0xFFFF#16
        | some (some w) => w2.getLsbD i.val = true ∧ f = w

/-! ## Host ports -/

/-- Writes to the window (R143, R166, R169, R170), at a port that is not OFFLINE and a location the access reaches: ARG
appends to a frame below 8 words and sets overrun on a full one; CMD sets overrun while BUSY, and otherwise takes the
frame with the command, empties it, clears the reply and sets BUSY; AMASK sets the three enables from bits 0 to 2. A
write to a read-only location, to an OFFLINE port or outside the selected transaction changes nothing. -/
def Obligations.WindowWrites : Prop :=
  ∀ (s : State) (h : HostId) (w : Word),
    let overrun : State := s.setPort h { s.port h with overrun := true }
    ((s.record h).state ≠ .offline →
      (s.reaches h false .arg = true →
        ((s.port h).args.length < 8 →
          exec (.argWrite h w) s = .next (s.setPort h { s.port h with args := (s.port h).args ++ [w] }))
        ∧ (8 ≤ (s.port h).args.length → exec (.argWrite h w) s = .next overrun))
      ∧ (s.reaches h false .cmd = true →
        ((s.port h).busy = true → exec (.cmdWrite h w) s = .next overrun)
        ∧ ((s.port h).busy = false → ∃ n : Nat, exec (.cmdWrite h w) s = .next (s.setPort h { s.port h with
            args := [], reply := Vector.replicate 8 0#16, replyPos := 0, replyReady := false, inFlight := some n
            nextId := n + 1, unadmitted := some ⟨h, n, w, (s.port h).args⟩ })))
      ∧ (s.reaches h false .amask = true → exec (.amaskWrite h w) s =
          .next (s.setPort h { s.port h with mask := ⟨w.getLsbD 0, w.getLsbD 1, w.getLsbD 2⟩ })))
    ∧ (∀ loc, exec (.windowWriteIgnored h loc w) s = .next s)
    ∧ (∀ x ∈ [(Loc.arg, Instr.argWrite h w), (.cmd, .cmdWrite h w), (.amask, .amaskWrite h w),
          (.pay, .payWrite h (.access w))],
        (s.record h).state = .offline ∨ s.reaches h false x.1 = false → exec x.2 s = .next s)

/-- Reads of the window (R166, R167, R168, R171). PSTAT is laid out bit by bit and its read clears overrun; PCOUNT shows
the inbound count, the notice count and the send window; RPL returns the next reply word, 0 while BUSY, and 0 with
overrun past the eighth or with no reply. An OFFLINE port answers 0, and an access outside the selected transaction
nothing. All fields of one word are taken at one moment (log 34). The reads that change nothing are views of the state
(log 23): CMD and ARG return 0, AMASK the three enables, IDENT the port number, the mode and the revision. -/
def Obligations.WindowReads : Prop :=
  ∀ (s : State) (h : HostId),
    let p := s.port h
    ((s.record h).state ≠ .offline →
      (s.reaches h true .pstat = true → ∃ w : Word,
        exec (.pstatRead h) s = .next ((s.setPort h { p with overrun := false }).returnWord h w)
        ∧ w.extractLsb' 0 2 = BitVec.ofNat 2 (s.record h).state.code
        ∧ w.getLsbD 2 = p.busy ∧ w.getLsbD 3 = p.replyReady ∧ w.getLsbD 4 = p.overrun
        ∧ w.getLsbD 5 = ((p.mask.n && decide (s.ring h ≠ []))
            || (p.mask.m && decide (s.queue h ≠ [] ∧ (s.stream h).openDesc = none)) || (p.mask.l && decide (0 < s.lost h)))
        ∧ w.getLsbD 6 = decide (0 < s.lost h)
        ∧ w.getLsbD 7 = (s.stream h).assembling.isSome ∧ w.getLsbD 8 = (s.stream h).openDesc.isSome
        ∧ w.extractLsb' 9 7 = 0#7)
      ∧ (s.reaches h true .pcount = true → StoreSound s → (s.queue h).length ≤ 48 → (s.ring h).length ≤ 8 →
        ∃ w : Word, exec (.pcountRead h) s = .next (s.returnWord h w)
          ∧ w.extractLsb' 0 8 = BitVec.ofNat 8 (s.queue h).length
          ∧ w.extractLsb' 8 4 = BitVec.ofNat 4 (s.ring h).length
          ∧ w.extractLsb' 12 4 = BitVec.ofNat 4 (sendWindow h s))
      ∧ (s.reaches h true .rpl = true →
        (p.busy = true → exec (.rplRead h) s = .next (s.returnWord h 0#16))
        ∧ (p.busy = false → p.replyReady = true → ∀ i : Fin 8, p.replyPos = i.val → exec (.rplRead h) s =
          .next ((s.setPort h { p with replyPos := i.val + 1 }).returnWord h (p.reply.get i)))
        ∧ (p.busy = false → p.replyReady = false ∨ 8 ≤ p.replyPos → exec (.rplRead h) s =
          .next ((s.setPort h { p with overrun := true }).returnWord h 0#16))))
    ∧ (∀ x ∈ [(Loc.pstat, Instr.pstatRead h), (.pcount, .pcountRead h), (.rpl, .rplRead h), (.pay, .payRead h)],
      (s.reaches h true x.1 = false → exec x.2 s = .next s)
      ∧ (s.reaches h true x.1 = true → (s.record h).state = .offline → exec x.2 s = .next (s.returnWord h 0#16)))
    ∧ quietRead s h .cmd = some 0#16 ∧ quietRead s h .arg = some 0#16
    ∧ ((s.record h).state = .offline → quietRead s h .amask = some 0#16 ∧ quietRead s h .ident = some 0#16)
    ∧ ((s.record h).state ≠ .offline → ∃ a i : Word, quietRead s h .amask = some a ∧ quietRead s h .ident = some i
      ∧ a.getLsbD 0 = p.mask.n ∧ a.getLsbD 1 = p.mask.m ∧ a.getLsbD 2 = p.mask.l ∧ a.extractLsb' 3 13 = 0#13
      ∧ i.extractLsb' 0 2 = BitVec.ofNat 2 h.val ∧ i.getLsbD 2 = decide (p.mode = .serial)
      ∧ i.extractLsb' 3 5 = 0#5 ∧ i.extractLsb' 8 8 = 1#8)
    ∧ ∀ loc, quietRead s h loc = none ↔ loc ∈ [Loc.pstat, .rpl, .pay, .pcount]

/-- The arrival of a reply (R171, R175, R176): the reply of an orphaned command is discarded and the orphan forgotten; the
reply of the command in flight fills the reply frame, words it does not define at 0, sets the reply position to 0, clears
BUSY and sets REPLY-READY. The reply of a LEAVE stays behind the departure at the port. -/
def Obligations.ReplyArrivalPlacesReply : Prop :=
  ∀ (s : State) (h : HostId) (k : Nat) (r : Reply), (s.port h).replies[k]? = some r →
    let p : Port := { s.port h with replies := (s.port h).replies.eraseIdx k }
    (r.afterLeave = true → .left ∈ (s.port h).departures → exec (.replyArrival h k) s = .next s)
    ∧ (r.afterLeave = false ∨ .left ∉ (s.port h).departures →
      (r.id ∈ (s.port h).orphaned → exec (.replyArrival h k) s =
        .next (s.setPort h { p with orphaned := p.orphaned.filter fun i => i ≠ r.id }))
      ∧ (r.id ∉ (s.port h).orphaned → (s.port h).inFlight = some r.id → ∃ f : Vector Word 8,
        exec (.replyArrival h k) s =
          .next (s.setPort h { p with reply := f, replyPos := 0, inFlight := none, replyReady := true })
        ∧ ∀ i : Fin 8, f.get i = (r.words[i.val]?).getD 0#16))

/-- Serial transactions (R179), at a port in SERIAL mode: the fall of SSELn has the header awaited; a header that is
written for a direction and a location selects them and takes no access, and any other has the rest of the transaction
ignored; each read of a data word drives SDO; at CMD, ARG, AMASK and IDENT, whose reads change nothing and have no row,
that read is the second form of HEADER_BYTE (log 22, 23), which does nothing elsewhere; the rise of SSELn ends the
transaction, releases SDO, and drops the bits of a word cut short. A PARALLEL port takes no part. -/
def Obligations.SerialTransactions : Prop :=
  ∀ (s : State) (h : HostId) (b : Byte) (cut : List Bool),
    ((s.port h).mode = .serial →
      ((s.port h).serial = .idle → exec (.serialTransactionBegin h) s =
        .next (s.setPort h { s.port h with serial := .header }))
      ∧ ((s.port h).serial = .header →
        (∀ read loc, b = encodeHeader read loc →
          exec (.headerByte h (.byte b)) s = .next (s.setPort h { s.port h with serial := .data read loc }))
        ∧ ((∀ read loc, b ≠ encodeHeader read loc) → exec (.headerByte h (.byte b)) s =
          .next (s.setPort h { s.port h with serial := .ignoring })))
      ∧ (∀ loc, (s.port h).serial = .data true loc →
        s.reaches h true loc = true
        ∧ (∀ w, (s.returnWord h w).port h = { s.port h with dataOut := w, sdoDriven := true })
        ∧ (∀ w, quietRead s h loc = some w → exec (.headerByte h .quietWord) s =
          .next (s.setPort h { s.port h with dataOut := w, sdoDriven := true }))
        ∧ (quietRead s h loc = none → exec (.headerByte h .quietWord) s = .next s))
      ∧ ((∀ loc, (s.port h).serial ≠ .data true loc) → exec (.headerByte h .quietWord) s = .next s)
      ∧ exec (.serialTransactionEnd h cut) s =
        .next (s.setPort h { s.port h with serial := .idle, sdoDriven := false }))
    ∧ ((s.port h).mode = .parallel →
      ∀ i ∈ [Instr.serialTransactionBegin h, .headerByte h (.byte b), .headerByte h .quietWord,
        .serialTransactionEnd h cut], exec i s = .next s)

/-! ## Ticks -/

/-- The time base (R146): while RESETn is held nothing is counted; otherwise a period of CLKIN is counted, and the one
that completes the divider in force produces a tick, delivered to the presence unit, the directory and the store, and
starts the next at the TICK_DIV recorded then. Periods that pass together are periods that pass one after the other. A
tick at each block (R13, R45, R96, R97) lowers by one the term of every JOINED host, every lease wait's deadline, or every
space wait's deadline and every hold; it waits until the expiries of the tick before have been taken (log 9). -/
def Obligations.TicksProducedAndTaken : Prop :=
  (∀ s : State,
      (s.resetn = true → ∀ n, exec (.tick (.clkin n)) s = .next s)
      ∧ (s.resetn = false →
        (s.timeBase.count + 1 < s.timeBase.divider → exec (.tick (.clkin 1)) s =
          .next { s with timeBase := { s.timeBase with count := s.timeBase.count + 1 } })
        ∧ (s.timeBase.count + 1 = s.timeBase.divider → exec (.tick (.clkin 1)) s = .next { s with
            timeBase := ⟨0, s.settings.tickDiv⟩
            presence := { s.presence with ticks := s.presence.ticks + 1 }
            dir := { s.dir with ticks := s.dir.ticks + 1 }
            store := { s.store with ticks := s.store.ticks + 1 } })
        ∧ (0 < s.settings.tickDiv → ∀ (m n : Nat) (t : State), exec (.tick (.clkin m)) s = .next t →
          exec (.tick (.clkin (m + n))) s = exec (.tick (.clkin n)) t)))
  ∧ (∀ (s : State) (k : Nat),
      let lowered (x : Option Nat) : Option Nat := x.map fun n => n - 1
      (s.presence.ticks = k + 1 →
        ((∃ h, (s.record h).state = .joined ∧ (s.record h).term = some 0) → exec (.tick .presenceUnit) s = .next s)
        ∧ ((∀ h, (s.record h).state = .joined → (s.record h).term ≠ some 0) → exec (.tick .presenceUnit) s =
          .next { s with presence := { s.presence with
            records := s.presence.records.map fun r =>
              { r with term := if r.state = .joined then lowered r.term else r.term }
            ticks := k } }))
      ∧ (s.dir.ticks = k + 1 →
        ((∃ h l w, s.wait h = some ⟨l, w, some 0⟩) → exec (.tick .directory) s = .next s)
        ∧ ((∀ h l w, s.wait h ≠ some ⟨l, w, some 0⟩) → exec (.tick .directory) s = .next { s with dir := { s.dir with
            waits := s.dir.waits.map fun x => x.map fun r => { r with ticks := lowered r.ticks }, ticks := k } }))
      ∧ (s.store.ticks = k + 1 →
        ((∃ h, (∃ n, s.space h = .waiting n (some 0)) ∨ ∃ d, s.space h = .reserved d 0) →
          exec (.tick .store) s = .next s)
        ∧ ((∀ h n, s.space h ≠ .waiting n (some 0)) → (∀ h d, s.space h ≠ .reserved d 0) →
          exec (.tick .store) s = .next { s with store := { s.store with
            space := s.store.space.map fun x => match x with
              | .empty => .empty
              | .waiting n t => .waiting n (lowered t)
              | .reserved d j => .reserved d (j - 1)
            ticks := k } })))

/-! ## The whole part -/

/-- Every step keeps the directory sound: entries within their states, wait records that match the waiter lists and the
pending upgrades, and no role for a host the directory does not count JOINED (R21, R24, R42, R52, R65). -/
def Obligations.StepKeepsDirectorySound : Prop :=
  ∀ s t : State, DirectoryOk s → step s = .next t → DirectoryOk t

/-- Every step keeps the store sound: each owned cell belongs to one position of one descriptor in use, the records,
lists and queues agree with the descriptors, and counts and positions stay within the messages (R81 to R84, R89, R92);
and it keeps the leases in transit and the messages that carry them in agreement, directory and store naming each other
(R128, R159). -/
def Obligations.StepKeepsStoreSound : Prop :=
  ∀ s t : State, StoreOk s → step s = .next t → StoreOk t ∧ (TransitOk s → TransitOk t)

/-- Every step keeps the payload memory canonical and within the cells, the rings and lost counts, the settings and error
counts, the ports and the presence records within their values (R2, R84, R136, R147, R153, R165). -/
def Obligations.StepKeepsBounds : Prop :=
  ∀ s t : State, step s = .next t →
    (PayloadOk s → PayloadOk t) ∧ (RingsOk s → RingsOk t) ∧ (SettingsOk s → SettingsOk t) ∧ (PortsOk s → PortsOk t)
      ∧ (PresenceOk s → PresenceOk t)

/-- The state after device reset is sound in every respect that the steps keep. -/
def Obligations.DeviceResetIsSound : Prop :=
  DirectoryOk State.reset ∧ StoreOk State.reset ∧ TransitOk State.reset ∧ PayloadOk State.reset ∧ RingsOk State.reset
    ∧ SettingsOk State.reset ∧ PortsOk State.reset ∧ PresenceOk State.reset

/-- What no command or event but device reset does (R22, R23, R39, R84, R158): a lease's generation changes by one step
up into EXCLUSIVE or by a rebuild, and every entry into EXCLUSIVE or change of its owner raises it; its value changes by
WRITE_VALUE of that lease or by a rebuild; a retired cell stays retired. -/
def Obligations.GenerationsAndRetiredCells : Prop :=
  ∀ (i : Instr) (s t : State), exec i s = .next t → i ≠ .resetnAssert →
    (∀ l : LeaseId, t.entry l ≠ LeaseEntry.rebuilt →
      ((t.entry l).generation = (s.entry l).generation
        ∨ ((t.entry l).generation = (s.entry l).generation + 1#16 ∧ (t.entry l).state = .exclusive))
      ∧ ((t.entry l).state = .exclusive → (s.entry l).state ≠ .exclusive ∨ (s.entry l).owner ≠ (t.entry l).owner →
        (t.entry l).generation = (s.entry l).generation + 1#16)
      ∧ ((t.entry l).value = (s.entry l).value
        ∨ ∃ h lease hi lo, i = .writeValue h lease hi lo ∧ lease.toNat = l.val ∧ (s.entry l).acts h = true))
    ∧ ∀ c : CellId, s.mapEntry c = .retired → t.mapEntry c = .retired

/-- No command or event of one host changes what another host sees of its own window: the frames, the reply, BUSY,
REPLY-READY, overrun, the mask and the mode (R165). Device reset alone reaches every port. -/
def Obligations.OtherWindowsUntouched : Prop :=
  ∀ (i : Instr) (s t : State) (g : HostId), exec i s = .next t → hostOf i ≠ some g → i ≠ .resetnAssert →
    (∀ pins, i ≠ .resetnRelease pins) → (t.port g).view = (s.port g).view

/-- Only the acting owner of L0 changes a setting, clears the error counts or evicts a host, and only by the command that
does so; only a JOIN of a host changes its session (R3, R11, R26, R148, R153, R154). Device reset is the exception. That
the caller acts as owner in the very step of the effect is the model's choice: the charter check and the effect are one
step (log 26). -/
def Obligations.CharterGuardsThePart : Prop :=
  ∀ (i : Instr) (s t : State), exec i s = .next t → i ≠ .resetnAssert →
    (∀ x : Setting, t.setting x ≠ s.setting x → ∃ h p v, i = .setParam h p v ∧ (s.entry 0).acts h = true)
    ∧ (SettingsOk s → t.settings.corrected < s.settings.corrected ∨ t.settings.uncorrected < s.settings.uncorrected →
      ∃ h, i = .clearCounts h ∧ (s.entry 0).acts h = true)
    ∧ (∀ g : HostId, (t.record g).fence = some .evicted → (s.record g).fence ≠ some .evicted →
      ∃ h v, i = .evict h v ∧ v.toNat = g.val ∧ h ≠ g ∧ (s.entry 0).acts h = true)
    ∧ ∀ g : HostId, (t.record g).session ≠ (s.record g).session → i = .join g ∧ (s.record g).state ≠ .joined

/-- No step takes a host's usage of descriptors or of cells up past the quota that the store then has in force: usage
above a lowered quota only falls (R87). -/
def Obligations.UsageRisesWithinQuota : Prop :=
  ∀ (i : Instr) (s t : State) (h : HostId), StoreOk s → exec i s = .next t →
    (descUsage h s < descUsage h t → descUsage h t ≤ t.store.descQuota)
      ∧ (cellUsage h s < cellUsage h t → cellUsage h t ≤ t.store.cellQuota)

/-- The send window is the room of the next BEGIN (R88): on a store whose objects read sound, a BEGIN of a host counted
JOINED that is not assembling, to a destination counted JOINED, for a message of at least one cell, is answered OK
exactly when its cells are within the window. -/
def Obligations.SendWindowIsBeginRoom : Prop :=
  ∀ (s t : State) (h : HostId) (dest length cls tag fenceLease fenceGen carried : Word) (m : Message) (id : Nat),
    s.takeStoreCommand h .beginMessage [dest, length, cls, tag, fenceLease, fenceGen, carried] = some (id, t) →
    StoreSound t → (t.stream h).assembling = none → t.store.joined.get h ≠ none →
    BeginArgs h dest length cls tag fenceLease fenceGen carried m → t.store.joined.get m.dest ≠ none →
    1 ≤ m.length →
    ((∃ (u : State) (ws : List Word),
        exec (.beginMessage h dest length cls tag fenceLease fenceGen carried) s = .next (u.reply h id .ok ws))
      ↔ (m.length + 15) / 16 ≤ sendWindow h t)
end

