-- ==== Sys2Proof/Laws/State.lean ====
section
/-! SUPPORT. The small lemmas of State: one per field and update, true by rfl, and what an accessor reads after an
update. No proof has to unfold a record update. -/

namespace Sys2Proof.Machine

open Sys2Proof

/-! ## Tables -/

@[simp] theorem upd_get_same {α : Type} {n : Nat} (v : Vector α n) (i : Fin n) (x : α) : (upd v i x).get i = x := by
  simp [upd, Vector.get_eq_getElem]

theorem upd_get_ne {α : Type} {n : Nat} (v : Vector α n) {i j : Fin n} (x : α) (ne : i ≠ j) :
    (upd v i x).get j = v.get j := by
  have h : i.val ≠ j.val := fun e => ne (Fin.ext e)
  simp [upd, Vector.get_eq_getElem, h]

theorem upd_get {α : Type} {n : Nat} (v : Vector α n) (i j : Fin n) (x : α) :
    (upd v i x).get j = if i = j then x else v.get j := by
  by_cases e : i = j
  · subst e; simp
  · simp [upd_get_ne v x e, e]

/-! ## Fields after an update -/
@[simp] theorem State.setPort_presence (s : State) (h : HostId) (p : Port) :
    (s.setPort h p).presence = s.presence := rfl
@[simp] theorem State.setPort_ports (s : State) (h : HostId) (p : Port) : (s.setPort h p).ports = upd s.ports h p := rfl
@[simp] theorem State.setPort_dir (s : State) (h : HostId) (p : Port) : (s.setPort h p).dir = s.dir := rfl
@[simp] theorem State.setPort_store (s : State) (h : HostId) (p : Port) : (s.setPort h p).store = s.store := rfl
@[simp] theorem State.setPort_notice (s : State) (h : HostId) (p : Port) : (s.setPort h p).notice = s.notice := rfl
@[simp] theorem State.setPort_settings (s : State) (h : HostId) (p : Port) :
    (s.setPort h p).settings = s.settings := rfl
@[simp] theorem State.setPort_timeBase (s : State) (h : HostId) (p : Port) :
    (s.setPort h p).timeBase = s.timeBase := rfl
@[simp] theorem State.setPort_resetn (s : State) (h : HostId) (p : Port) : (s.setPort h p).resetn = s.resetn := rfl
@[simp] theorem State.setPort_pending (s : State) (h : HostId) (p : Port) : (s.setPort h p).pending = s.pending := rfl

@[simp] theorem State.setRecord_presence_records (s : State) (h : HostId) (r : PresenceRecord) :
    (s.setRecord h r).presence.records = upd s.presence.records h r := rfl
@[simp] theorem State.setRecord_presence_ticks (s : State) (h : HostId) (r : PresenceRecord) :
    (s.setRecord h r).presence.ticks = s.presence.ticks := rfl
@[simp] theorem State.setRecord_presence_evicting (s : State) (h : HostId) (r : PresenceRecord) :
    (s.setRecord h r).presence.evicting = s.presence.evicting := rfl
@[simp] theorem State.setRecord_ports (s : State) (h : HostId) (r : PresenceRecord) :
    (s.setRecord h r).ports = s.ports := rfl
@[simp] theorem State.setRecord_dir (s : State) (h : HostId) (r : PresenceRecord) : (s.setRecord h r).dir = s.dir := rfl
@[simp] theorem State.setRecord_store (s : State) (h : HostId) (r : PresenceRecord) :
    (s.setRecord h r).store = s.store := rfl
@[simp] theorem State.setRecord_notice (s : State) (h : HostId) (r : PresenceRecord) :
    (s.setRecord h r).notice = s.notice := rfl
@[simp] theorem State.setRecord_settings (s : State) (h : HostId) (r : PresenceRecord) :
    (s.setRecord h r).settings = s.settings := rfl
@[simp] theorem State.setRecord_timeBase (s : State) (h : HostId) (r : PresenceRecord) :
    (s.setRecord h r).timeBase = s.timeBase := rfl
@[simp] theorem State.setRecord_resetn (s : State) (h : HostId) (r : PresenceRecord) :
    (s.setRecord h r).resetn = s.resetn := rfl
@[simp] theorem State.setRecord_pending (s : State) (h : HostId) (r : PresenceRecord) :
    (s.setRecord h r).pending = s.pending := rfl

@[simp] theorem State.setEvicting_presence_records (s : State) (h : HostId) (c : Option Command) :
    (s.setEvicting h c).presence.records = s.presence.records := rfl
@[simp] theorem State.setEvicting_presence_ticks (s : State) (h : HostId) (c : Option Command) :
    (s.setEvicting h c).presence.ticks = s.presence.ticks := rfl
@[simp] theorem State.setEvicting_presence_evicting (s : State) (h : HostId) (c : Option Command) :
    (s.setEvicting h c).presence.evicting = upd s.presence.evicting h c := rfl
@[simp] theorem State.setEvicting_ports (s : State) (h : HostId) (c : Option Command) :
    (s.setEvicting h c).ports = s.ports := rfl
@[simp] theorem State.setEvicting_dir (s : State) (h : HostId) (c : Option Command) :
    (s.setEvicting h c).dir = s.dir := rfl
@[simp] theorem State.setEvicting_store (s : State) (h : HostId) (c : Option Command) :
    (s.setEvicting h c).store = s.store := rfl
@[simp] theorem State.setEvicting_notice (s : State) (h : HostId) (c : Option Command) :
    (s.setEvicting h c).notice = s.notice := rfl
@[simp] theorem State.setEvicting_settings (s : State) (h : HostId) (c : Option Command) :
    (s.setEvicting h c).settings = s.settings := rfl
@[simp] theorem State.setEvicting_timeBase (s : State) (h : HostId) (c : Option Command) :
    (s.setEvicting h c).timeBase = s.timeBase := rfl
@[simp] theorem State.setEvicting_resetn (s : State) (h : HostId) (c : Option Command) :
    (s.setEvicting h c).resetn = s.resetn := rfl
@[simp] theorem State.setEvicting_pending (s : State) (h : HostId) (c : Option Command) :
    (s.setEvicting h c).pending = s.pending := rfl

@[simp] theorem State.putEntry_presence (s : State) (l : LeaseId) (e : LeaseEntry) :
    (s.putEntry l e).presence = s.presence := rfl
@[simp] theorem State.putEntry_ports (s : State) (l : LeaseId) (e : LeaseEntry) :
    (s.putEntry l e).ports = s.ports := rfl
@[simp] theorem State.putEntry_dir_entries (s : State) (l : LeaseId) (e : LeaseEntry) :
    (s.putEntry l e).dir.entries = upd s.dir.entries l ⟨e, .sound⟩ := rfl
@[simp] theorem State.putEntry_dir_waits (s : State) (l : LeaseId) (e : LeaseEntry) :
    (s.putEntry l e).dir.waits = s.dir.waits := rfl
@[simp] theorem State.putEntry_dir_joined (s : State) (l : LeaseId) (e : LeaseEntry) :
    (s.putEntry l e).dir.joined = s.dir.joined := rfl
@[simp] theorem State.putEntry_dir_departing (s : State) (l : LeaseId) (e : LeaseEntry) :
    (s.putEntry l e).dir.departing = s.dir.departing := rfl
@[simp] theorem State.putEntry_dir_path (s : State) (l : LeaseId) (e : LeaseEntry) :
    (s.putEntry l e).dir.path = s.dir.path := rfl
@[simp] theorem State.putEntry_dir_ticks (s : State) (l : LeaseId) (e : LeaseEntry) :
    (s.putEntry l e).dir.ticks = s.dir.ticks := rfl
@[simp] theorem State.putEntry_store (s : State) (l : LeaseId) (e : LeaseEntry) :
    (s.putEntry l e).store = s.store := rfl
@[simp] theorem State.putEntry_notice (s : State) (l : LeaseId) (e : LeaseEntry) :
    (s.putEntry l e).notice = s.notice := rfl
@[simp] theorem State.putEntry_settings (s : State) (l : LeaseId) (e : LeaseEntry) :
    (s.putEntry l e).settings = s.settings := rfl
@[simp] theorem State.putEntry_timeBase (s : State) (l : LeaseId) (e : LeaseEntry) :
    (s.putEntry l e).timeBase = s.timeBase := rfl
@[simp] theorem State.putEntry_resetn (s : State) (l : LeaseId) (e : LeaseEntry) :
    (s.putEntry l e).resetn = s.resetn := rfl
@[simp] theorem State.putEntry_pending (s : State) (l : LeaseId) (e : LeaseEntry) :
    (s.putEntry l e).pending = s.pending := rfl

@[simp] theorem State.setWait_presence (s : State) (h : HostId) (r : Option WaitRecord) :
    (s.setWait h r).presence = s.presence := rfl
@[simp] theorem State.setWait_ports (s : State) (h : HostId) (r : Option WaitRecord) :
    (s.setWait h r).ports = s.ports := rfl
@[simp] theorem State.setWait_dir_entries (s : State) (h : HostId) (r : Option WaitRecord) :
    (s.setWait h r).dir.entries = s.dir.entries := rfl
@[simp] theorem State.setWait_dir_waits (s : State) (h : HostId) (r : Option WaitRecord) :
    (s.setWait h r).dir.waits = upd s.dir.waits h r := rfl
@[simp] theorem State.setWait_dir_joined (s : State) (h : HostId) (r : Option WaitRecord) :
    (s.setWait h r).dir.joined = s.dir.joined := rfl
@[simp] theorem State.setWait_dir_departing (s : State) (h : HostId) (r : Option WaitRecord) :
    (s.setWait h r).dir.departing = s.dir.departing := rfl
@[simp] theorem State.setWait_dir_path (s : State) (h : HostId) (r : Option WaitRecord) :
    (s.setWait h r).dir.path = s.dir.path := rfl
@[simp] theorem State.setWait_dir_ticks (s : State) (h : HostId) (r : Option WaitRecord) :
    (s.setWait h r).dir.ticks = s.dir.ticks := rfl
@[simp] theorem State.setWait_store (s : State) (h : HostId) (r : Option WaitRecord) :
    (s.setWait h r).store = s.store := rfl
@[simp] theorem State.setWait_notice (s : State) (h : HostId) (r : Option WaitRecord) :
    (s.setWait h r).notice = s.notice := rfl
@[simp] theorem State.setWait_settings (s : State) (h : HostId) (r : Option WaitRecord) :
    (s.setWait h r).settings = s.settings := rfl
@[simp] theorem State.setWait_timeBase (s : State) (h : HostId) (r : Option WaitRecord) :
    (s.setWait h r).timeBase = s.timeBase := rfl
@[simp] theorem State.setWait_resetn (s : State) (h : HostId) (r : Option WaitRecord) :
    (s.setWait h r).resetn = s.resetn := rfl
@[simp] theorem State.setWait_pending (s : State) (h : HostId) (r : Option WaitRecord) :
    (s.setWait h r).pending = s.pending := rfl

@[simp] theorem State.setDirPath_presence (s : State) (p : List PathItem) :
    (s.setDirPath p).presence = s.presence := rfl
@[simp] theorem State.setDirPath_ports (s : State) (p : List PathItem) : (s.setDirPath p).ports = s.ports := rfl
@[simp] theorem State.setDirPath_dir_entries (s : State) (p : List PathItem) :
    (s.setDirPath p).dir.entries = s.dir.entries := rfl
@[simp] theorem State.setDirPath_dir_waits (s : State) (p : List PathItem) :
    (s.setDirPath p).dir.waits = s.dir.waits := rfl
@[simp] theorem State.setDirPath_dir_joined (s : State) (p : List PathItem) :
    (s.setDirPath p).dir.joined = s.dir.joined := rfl
@[simp] theorem State.setDirPath_dir_departing (s : State) (p : List PathItem) :
    (s.setDirPath p).dir.departing = s.dir.departing := rfl
@[simp] theorem State.setDirPath_dir_path (s : State) (p : List PathItem) : (s.setDirPath p).dir.path = p := rfl
@[simp] theorem State.setDirPath_dir_ticks (s : State) (p : List PathItem) :
    (s.setDirPath p).dir.ticks = s.dir.ticks := rfl
@[simp] theorem State.setDirPath_store (s : State) (p : List PathItem) : (s.setDirPath p).store = s.store := rfl
@[simp] theorem State.setDirPath_notice (s : State) (p : List PathItem) : (s.setDirPath p).notice = s.notice := rfl
@[simp] theorem State.setDirPath_settings (s : State) (p : List PathItem) :
    (s.setDirPath p).settings = s.settings := rfl
@[simp] theorem State.setDirPath_timeBase (s : State) (p : List PathItem) :
    (s.setDirPath p).timeBase = s.timeBase := rfl
@[simp] theorem State.setDirPath_resetn (s : State) (p : List PathItem) : (s.setDirPath p).resetn = s.resetn := rfl
@[simp] theorem State.setDirPath_pending (s : State) (p : List PathItem) : (s.setDirPath p).pending = s.pending := rfl

@[simp] theorem State.putDesc_presence (s : State) (d : DescId) (x : Descriptor) :
    (s.putDesc d x).presence = s.presence := rfl
@[simp] theorem State.putDesc_ports (s : State) (d : DescId) (x : Descriptor) : (s.putDesc d x).ports = s.ports := rfl
@[simp] theorem State.putDesc_dir (s : State) (d : DescId) (x : Descriptor) : (s.putDesc d x).dir = s.dir := rfl
@[simp] theorem State.putDesc_store_descs (s : State) (d : DescId) (x : Descriptor) :
    (s.putDesc d x).store.descs = upd s.store.descs d ⟨x, .sound⟩ := rfl
@[simp] theorem State.putDesc_store_map (s : State) (d : DescId) (x : Descriptor) :
    (s.putDesc d x).store.map = s.store.map := rfl
@[simp] theorem State.putDesc_store_payload (s : State) (d : DescId) (x : Descriptor) :
    (s.putDesc d x).store.payload = s.store.payload := rfl
@[simp] theorem State.putDesc_store_cellChk (s : State) (d : DescId) (x : Descriptor) :
    (s.putDesc d x).store.cellChk = s.store.cellChk := rfl
@[simp] theorem State.putDesc_store_inbound (s : State) (d : DescId) (x : Descriptor) :
    (s.putDesc d x).store.inbound = s.store.inbound := rfl
@[simp] theorem State.putDesc_store_space (s : State) (d : DescId) (x : Descriptor) :
    (s.putDesc d x).store.space = s.store.space := rfl
@[simp] theorem State.putDesc_store_spaceList (s : State) (d : DescId) (x : Descriptor) :
    (s.putDesc d x).store.spaceList = s.store.spaceList := rfl
@[simp] theorem State.putDesc_store_streams (s : State) (d : DescId) (x : Descriptor) :
    (s.putDesc d x).store.streams = s.store.streams := rfl
@[simp] theorem State.putDesc_store_joined (s : State) (d : DescId) (x : Descriptor) :
    (s.putDesc d x).store.joined = s.store.joined := rfl
@[simp] theorem State.putDesc_store_descQuota (s : State) (d : DescId) (x : Descriptor) :
    (s.putDesc d x).store.descQuota = s.store.descQuota := rfl
@[simp] theorem State.putDesc_store_cellQuota (s : State) (d : DescId) (x : Descriptor) :
    (s.putDesc d x).store.cellQuota = s.store.cellQuota := rfl
@[simp] theorem State.putDesc_store_inboundLimit (s : State) (d : DescId) (x : Descriptor) :
    (s.putDesc d x).store.inboundLimit = s.store.inboundLimit := rfl
@[simp] theorem State.putDesc_store_changes (s : State) (d : DescId) (x : Descriptor) :
    (s.putDesc d x).store.changes = s.store.changes := rfl
@[simp] theorem State.putDesc_store_path (s : State) (d : DescId) (x : Descriptor) :
    (s.putDesc d x).store.path = s.store.path := rfl
@[simp] theorem State.putDesc_store_ticks (s : State) (d : DescId) (x : Descriptor) :
    (s.putDesc d x).store.ticks = s.store.ticks := rfl
@[simp] theorem State.putDesc_notice (s : State) (d : DescId) (x : Descriptor) :
    (s.putDesc d x).notice = s.notice := rfl
@[simp] theorem State.putDesc_settings (s : State) (d : DescId) (x : Descriptor) :
    (s.putDesc d x).settings = s.settings := rfl
@[simp] theorem State.putDesc_timeBase (s : State) (d : DescId) (x : Descriptor) :
    (s.putDesc d x).timeBase = s.timeBase := rfl
@[simp] theorem State.putDesc_resetn (s : State) (d : DescId) (x : Descriptor) :
    (s.putDesc d x).resetn = s.resetn := rfl
@[simp] theorem State.putDesc_pending (s : State) (d : DescId) (x : Descriptor) :
    (s.putDesc d x).pending = s.pending := rfl


@[simp] theorem State.putMap_presence (s : State) (c : CellId) (x : MapEntry) :
    (s.putMap c x).presence = s.presence := rfl
@[simp] theorem State.putMap_ports (s : State) (c : CellId) (x : MapEntry) : (s.putMap c x).ports = s.ports := rfl
@[simp] theorem State.putMap_dir (s : State) (c : CellId) (x : MapEntry) : (s.putMap c x).dir = s.dir := rfl
@[simp] theorem State.putMap_store_descs (s : State) (c : CellId) (x : MapEntry) :
    (s.putMap c x).store.descs = s.store.descs := rfl
@[simp] theorem State.putMap_store_map (s : State) (c : CellId) (x : MapEntry) :
    (s.putMap c x).store.map = upd s.store.map c ⟨x, .sound⟩ := rfl
@[simp] theorem State.putMap_store_payload (s : State) (c : CellId) (x : MapEntry) :
    (s.putMap c x).store.payload = s.store.payload := rfl
@[simp] theorem State.putMap_store_cellChk (s : State) (c : CellId) (x : MapEntry) :
    (s.putMap c x).store.cellChk = s.store.cellChk := rfl
@[simp] theorem State.putMap_store_inbound (s : State) (c : CellId) (x : MapEntry) :
    (s.putMap c x).store.inbound = s.store.inbound := rfl
@[simp] theorem State.putMap_store_space (s : State) (c : CellId) (x : MapEntry) :
    (s.putMap c x).store.space = s.store.space := rfl
@[simp] theorem State.putMap_store_spaceList (s : State) (c : CellId) (x : MapEntry) :
    (s.putMap c x).store.spaceList = s.store.spaceList := rfl
@[simp] theorem State.putMap_store_streams (s : State) (c : CellId) (x : MapEntry) :
    (s.putMap c x).store.streams = s.store.streams := rfl
@[simp] theorem State.putMap_store_joined (s : State) (c : CellId) (x : MapEntry) :
    (s.putMap c x).store.joined = s.store.joined := rfl
@[simp] theorem State.putMap_store_descQuota (s : State) (c : CellId) (x : MapEntry) :
    (s.putMap c x).store.descQuota = s.store.descQuota := rfl
@[simp] theorem State.putMap_store_cellQuota (s : State) (c : CellId) (x : MapEntry) :
    (s.putMap c x).store.cellQuota = s.store.cellQuota := rfl
@[simp] theorem State.putMap_store_inboundLimit (s : State) (c : CellId) (x : MapEntry) :
    (s.putMap c x).store.inboundLimit = s.store.inboundLimit := rfl
@[simp] theorem State.putMap_store_changes (s : State) (c : CellId) (x : MapEntry) :
    (s.putMap c x).store.changes = s.store.changes := rfl
@[simp] theorem State.putMap_store_path (s : State) (c : CellId) (x : MapEntry) :
    (s.putMap c x).store.path = s.store.path := rfl
@[simp] theorem State.putMap_store_ticks (s : State) (c : CellId) (x : MapEntry) :
    (s.putMap c x).store.ticks = s.store.ticks := rfl
@[simp] theorem State.putMap_notice (s : State) (c : CellId) (x : MapEntry) : (s.putMap c x).notice = s.notice := rfl
@[simp] theorem State.putMap_settings (s : State) (c : CellId) (x : MapEntry) :
    (s.putMap c x).settings = s.settings := rfl
@[simp] theorem State.putMap_timeBase (s : State) (c : CellId) (x : MapEntry) :
    (s.putMap c x).timeBase = s.timeBase := rfl
@[simp] theorem State.putMap_resetn (s : State) (c : CellId) (x : MapEntry) : (s.putMap c x).resetn = s.resetn := rfl
@[simp] theorem State.putMap_pending (s : State) (c : CellId) (x : MapEntry) : (s.putMap c x).pending = s.pending := rfl

@[simp] theorem State.setCellChk_presence (s : State) (c : CellId) (k : Check) :
    (s.setCellChk c k).presence = s.presence := rfl
@[simp] theorem State.setCellChk_ports (s : State) (c : CellId) (k : Check) : (s.setCellChk c k).ports = s.ports := rfl
@[simp] theorem State.setCellChk_dir (s : State) (c : CellId) (k : Check) : (s.setCellChk c k).dir = s.dir := rfl
@[simp] theorem State.setCellChk_store_descs (s : State) (c : CellId) (k : Check) :
    (s.setCellChk c k).store.descs = s.store.descs := rfl
@[simp] theorem State.setCellChk_store_map (s : State) (c : CellId) (k : Check) :
    (s.setCellChk c k).store.map = s.store.map := rfl
@[simp] theorem State.setCellChk_store_payload (s : State) (c : CellId) (k : Check) :
    (s.setCellChk c k).store.payload = s.store.payload := rfl
@[simp] theorem State.setCellChk_store_cellChk (s : State) (c : CellId) (k : Check) :
    (s.setCellChk c k).store.cellChk = upd s.store.cellChk c k := rfl
@[simp] theorem State.setCellChk_store_inbound (s : State) (c : CellId) (k : Check) :
    (s.setCellChk c k).store.inbound = s.store.inbound := rfl
@[simp] theorem State.setCellChk_store_space (s : State) (c : CellId) (k : Check) :
    (s.setCellChk c k).store.space = s.store.space := rfl
@[simp] theorem State.setCellChk_store_spaceList (s : State) (c : CellId) (k : Check) :
    (s.setCellChk c k).store.spaceList = s.store.spaceList := rfl
@[simp] theorem State.setCellChk_store_streams (s : State) (c : CellId) (k : Check) :
    (s.setCellChk c k).store.streams = s.store.streams := rfl
@[simp] theorem State.setCellChk_store_joined (s : State) (c : CellId) (k : Check) :
    (s.setCellChk c k).store.joined = s.store.joined := rfl
@[simp] theorem State.setCellChk_store_descQuota (s : State) (c : CellId) (k : Check) :
    (s.setCellChk c k).store.descQuota = s.store.descQuota := rfl
@[simp] theorem State.setCellChk_store_cellQuota (s : State) (c : CellId) (k : Check) :
    (s.setCellChk c k).store.cellQuota = s.store.cellQuota := rfl
@[simp] theorem State.setCellChk_store_inboundLimit (s : State) (c : CellId) (k : Check) :
    (s.setCellChk c k).store.inboundLimit = s.store.inboundLimit := rfl
@[simp] theorem State.setCellChk_store_changes (s : State) (c : CellId) (k : Check) :
    (s.setCellChk c k).store.changes = s.store.changes := rfl
@[simp] theorem State.setCellChk_store_path (s : State) (c : CellId) (k : Check) :
    (s.setCellChk c k).store.path = s.store.path := rfl
@[simp] theorem State.setCellChk_store_ticks (s : State) (c : CellId) (k : Check) :
    (s.setCellChk c k).store.ticks = s.store.ticks := rfl
@[simp] theorem State.setCellChk_notice (s : State) (c : CellId) (k : Check) :
    (s.setCellChk c k).notice = s.notice := rfl
@[simp] theorem State.setCellChk_settings (s : State) (c : CellId) (k : Check) :
    (s.setCellChk c k).settings = s.settings := rfl
@[simp] theorem State.setCellChk_timeBase (s : State) (c : CellId) (k : Check) :
    (s.setCellChk c k).timeBase = s.timeBase := rfl
@[simp] theorem State.setCellChk_resetn (s : State) (c : CellId) (k : Check) :
    (s.setCellChk c k).resetn = s.resetn := rfl
@[simp] theorem State.setCellChk_pending (s : State) (c : CellId) (k : Check) :
    (s.setCellChk c k).pending = s.pending := rfl

@[simp] theorem State.setSpace_presence (s : State) (h : HostId) (r : SpaceRecord) :
    (s.setSpace h r).presence = s.presence := rfl
@[simp] theorem State.setSpace_ports (s : State) (h : HostId) (r : SpaceRecord) :
    (s.setSpace h r).ports = s.ports := rfl
@[simp] theorem State.setSpace_dir (s : State) (h : HostId) (r : SpaceRecord) : (s.setSpace h r).dir = s.dir := rfl
@[simp] theorem State.setSpace_store_descs (s : State) (h : HostId) (r : SpaceRecord) :
    (s.setSpace h r).store.descs = s.store.descs := rfl
@[simp] theorem State.setSpace_store_map (s : State) (h : HostId) (r : SpaceRecord) :
    (s.setSpace h r).store.map = s.store.map := rfl
@[simp] theorem State.setSpace_store_payload (s : State) (h : HostId) (r : SpaceRecord) :
    (s.setSpace h r).store.payload = s.store.payload := rfl
@[simp] theorem State.setSpace_store_cellChk (s : State) (h : HostId) (r : SpaceRecord) :
    (s.setSpace h r).store.cellChk = s.store.cellChk := rfl
@[simp] theorem State.setSpace_store_inbound (s : State) (h : HostId) (r : SpaceRecord) :
    (s.setSpace h r).store.inbound = s.store.inbound := rfl
@[simp] theorem State.setSpace_store_space (s : State) (h : HostId) (r : SpaceRecord) :
    (s.setSpace h r).store.space = upd s.store.space h r := rfl
@[simp] theorem State.setSpace_store_spaceList (s : State) (h : HostId) (r : SpaceRecord) :
    (s.setSpace h r).store.spaceList = s.store.spaceList := rfl
@[simp] theorem State.setSpace_store_streams (s : State) (h : HostId) (r : SpaceRecord) :
    (s.setSpace h r).store.streams = s.store.streams := rfl
@[simp] theorem State.setSpace_store_joined (s : State) (h : HostId) (r : SpaceRecord) :
    (s.setSpace h r).store.joined = s.store.joined := rfl
@[simp] theorem State.setSpace_store_descQuota (s : State) (h : HostId) (r : SpaceRecord) :
    (s.setSpace h r).store.descQuota = s.store.descQuota := rfl
@[simp] theorem State.setSpace_store_cellQuota (s : State) (h : HostId) (r : SpaceRecord) :
    (s.setSpace h r).store.cellQuota = s.store.cellQuota := rfl
@[simp] theorem State.setSpace_store_inboundLimit (s : State) (h : HostId) (r : SpaceRecord) :
    (s.setSpace h r).store.inboundLimit = s.store.inboundLimit := rfl
@[simp] theorem State.setSpace_store_changes (s : State) (h : HostId) (r : SpaceRecord) :
    (s.setSpace h r).store.changes = s.store.changes := rfl
@[simp] theorem State.setSpace_store_path (s : State) (h : HostId) (r : SpaceRecord) :
    (s.setSpace h r).store.path = s.store.path := rfl
@[simp] theorem State.setSpace_store_ticks (s : State) (h : HostId) (r : SpaceRecord) :
    (s.setSpace h r).store.ticks = s.store.ticks := rfl
@[simp] theorem State.setSpace_notice (s : State) (h : HostId) (r : SpaceRecord) :
    (s.setSpace h r).notice = s.notice := rfl
@[simp] theorem State.setSpace_settings (s : State) (h : HostId) (r : SpaceRecord) :
    (s.setSpace h r).settings = s.settings := rfl
@[simp] theorem State.setSpace_timeBase (s : State) (h : HostId) (r : SpaceRecord) :
    (s.setSpace h r).timeBase = s.timeBase := rfl
@[simp] theorem State.setSpace_resetn (s : State) (h : HostId) (r : SpaceRecord) :
    (s.setSpace h r).resetn = s.resetn := rfl
@[simp] theorem State.setSpace_pending (s : State) (h : HostId) (r : SpaceRecord) :
    (s.setSpace h r).pending = s.pending := rfl

@[simp] theorem State.setStream_presence (s : State) (h : HostId) (r : StreamRecord) :
    (s.setStream h r).presence = s.presence := rfl
@[simp] theorem State.setStream_ports (s : State) (h : HostId) (r : StreamRecord) :
    (s.setStream h r).ports = s.ports := rfl
@[simp] theorem State.setStream_dir (s : State) (h : HostId) (r : StreamRecord) : (s.setStream h r).dir = s.dir := rfl
@[simp] theorem State.setStream_store_descs (s : State) (h : HostId) (r : StreamRecord) :
    (s.setStream h r).store.descs = s.store.descs := rfl
@[simp] theorem State.setStream_store_map (s : State) (h : HostId) (r : StreamRecord) :
    (s.setStream h r).store.map = s.store.map := rfl
@[simp] theorem State.setStream_store_payload (s : State) (h : HostId) (r : StreamRecord) :
    (s.setStream h r).store.payload = s.store.payload := rfl
@[simp] theorem State.setStream_store_cellChk (s : State) (h : HostId) (r : StreamRecord) :
    (s.setStream h r).store.cellChk = s.store.cellChk := rfl
@[simp] theorem State.setStream_store_inbound (s : State) (h : HostId) (r : StreamRecord) :
    (s.setStream h r).store.inbound = s.store.inbound := rfl
@[simp] theorem State.setStream_store_space (s : State) (h : HostId) (r : StreamRecord) :
    (s.setStream h r).store.space = s.store.space := rfl
@[simp] theorem State.setStream_store_spaceList (s : State) (h : HostId) (r : StreamRecord) :
    (s.setStream h r).store.spaceList = s.store.spaceList := rfl
@[simp] theorem State.setStream_store_streams (s : State) (h : HostId) (r : StreamRecord) :
    (s.setStream h r).store.streams = upd s.store.streams h r := rfl
@[simp] theorem State.setStream_store_joined (s : State) (h : HostId) (r : StreamRecord) :
    (s.setStream h r).store.joined = s.store.joined := rfl
@[simp] theorem State.setStream_store_descQuota (s : State) (h : HostId) (r : StreamRecord) :
    (s.setStream h r).store.descQuota = s.store.descQuota := rfl
@[simp] theorem State.setStream_store_cellQuota (s : State) (h : HostId) (r : StreamRecord) :
    (s.setStream h r).store.cellQuota = s.store.cellQuota := rfl
@[simp] theorem State.setStream_store_inboundLimit (s : State) (h : HostId) (r : StreamRecord) :
    (s.setStream h r).store.inboundLimit = s.store.inboundLimit := rfl
@[simp] theorem State.setStream_store_changes (s : State) (h : HostId) (r : StreamRecord) :
    (s.setStream h r).store.changes = s.store.changes := rfl
@[simp] theorem State.setStream_store_path (s : State) (h : HostId) (r : StreamRecord) :
    (s.setStream h r).store.path = s.store.path := rfl
@[simp] theorem State.setStream_store_ticks (s : State) (h : HostId) (r : StreamRecord) :
    (s.setStream h r).store.ticks = s.store.ticks := rfl
@[simp] theorem State.setStream_notice (s : State) (h : HostId) (r : StreamRecord) :
    (s.setStream h r).notice = s.notice := rfl
@[simp] theorem State.setStream_settings (s : State) (h : HostId) (r : StreamRecord) :
    (s.setStream h r).settings = s.settings := rfl
@[simp] theorem State.setStream_timeBase (s : State) (h : HostId) (r : StreamRecord) :
    (s.setStream h r).timeBase = s.timeBase := rfl
@[simp] theorem State.setStream_resetn (s : State) (h : HostId) (r : StreamRecord) :
    (s.setStream h r).resetn = s.resetn := rfl
@[simp] theorem State.setStream_pending (s : State) (h : HostId) (r : StreamRecord) :
    (s.setStream h r).pending = s.pending := rfl

@[simp] theorem State.setStorePath_presence (s : State) (p : List StoreItem) :
    (s.setStorePath p).presence = s.presence := rfl
@[simp] theorem State.setStorePath_ports (s : State) (p : List StoreItem) : (s.setStorePath p).ports = s.ports := rfl
@[simp] theorem State.setStorePath_dir (s : State) (p : List StoreItem) : (s.setStorePath p).dir = s.dir := rfl
@[simp] theorem State.setStorePath_store_descs (s : State) (p : List StoreItem) :
    (s.setStorePath p).store.descs = s.store.descs := rfl
@[simp] theorem State.setStorePath_store_map (s : State) (p : List StoreItem) :
    (s.setStorePath p).store.map = s.store.map := rfl
@[simp] theorem State.setStorePath_store_payload (s : State) (p : List StoreItem) :
    (s.setStorePath p).store.payload = s.store.payload := rfl
@[simp] theorem State.setStorePath_store_cellChk (s : State) (p : List StoreItem) :
    (s.setStorePath p).store.cellChk = s.store.cellChk := rfl
@[simp] theorem State.setStorePath_store_inbound (s : State) (p : List StoreItem) :
    (s.setStorePath p).store.inbound = s.store.inbound := rfl
@[simp] theorem State.setStorePath_store_space (s : State) (p : List StoreItem) :
    (s.setStorePath p).store.space = s.store.space := rfl
@[simp] theorem State.setStorePath_store_spaceList (s : State) (p : List StoreItem) :
    (s.setStorePath p).store.spaceList = s.store.spaceList := rfl
@[simp] theorem State.setStorePath_store_streams (s : State) (p : List StoreItem) :
    (s.setStorePath p).store.streams = s.store.streams := rfl
@[simp] theorem State.setStorePath_store_joined (s : State) (p : List StoreItem) :
    (s.setStorePath p).store.joined = s.store.joined := rfl
@[simp] theorem State.setStorePath_store_descQuota (s : State) (p : List StoreItem) :
    (s.setStorePath p).store.descQuota = s.store.descQuota := rfl
@[simp] theorem State.setStorePath_store_cellQuota (s : State) (p : List StoreItem) :
    (s.setStorePath p).store.cellQuota = s.store.cellQuota := rfl
@[simp] theorem State.setStorePath_store_inboundLimit (s : State) (p : List StoreItem) :
    (s.setStorePath p).store.inboundLimit = s.store.inboundLimit := rfl
@[simp] theorem State.setStorePath_store_changes (s : State) (p : List StoreItem) :
    (s.setStorePath p).store.changes = s.store.changes := rfl
@[simp] theorem State.setStorePath_store_path (s : State) (p : List StoreItem) :
    (s.setStorePath p).store.path = p := rfl
@[simp] theorem State.setStorePath_store_ticks (s : State) (p : List StoreItem) :
    (s.setStorePath p).store.ticks = s.store.ticks := rfl
@[simp] theorem State.setStorePath_notice (s : State) (p : List StoreItem) : (s.setStorePath p).notice = s.notice := rfl
@[simp] theorem State.setStorePath_settings (s : State) (p : List StoreItem) :
    (s.setStorePath p).settings = s.settings := rfl
@[simp] theorem State.setStorePath_timeBase (s : State) (p : List StoreItem) :
    (s.setStorePath p).timeBase = s.timeBase := rfl
@[simp] theorem State.setStorePath_resetn (s : State) (p : List StoreItem) : (s.setStorePath p).resetn = s.resetn := rfl
@[simp] theorem State.setStorePath_pending (s : State) (p : List StoreItem) :
    (s.setStorePath p).pending = s.pending := rfl

@[simp] theorem State.setNoticePath_presence (s : State) (p : List PathItem) :
    (s.setNoticePath p).presence = s.presence := rfl
@[simp] theorem State.setNoticePath_ports (s : State) (p : List PathItem) : (s.setNoticePath p).ports = s.ports := rfl
@[simp] theorem State.setNoticePath_dir (s : State) (p : List PathItem) : (s.setNoticePath p).dir = s.dir := rfl
@[simp] theorem State.setNoticePath_store (s : State) (p : List PathItem) : (s.setNoticePath p).store = s.store := rfl
@[simp] theorem State.setNoticePath_notice_rings (s : State) (p : List PathItem) :
    (s.setNoticePath p).notice.rings = s.notice.rings := rfl
@[simp] theorem State.setNoticePath_notice_lost (s : State) (p : List PathItem) :
    (s.setNoticePath p).notice.lost = s.notice.lost := rfl
@[simp] theorem State.setNoticePath_notice_joined (s : State) (p : List PathItem) :
    (s.setNoticePath p).notice.joined = s.notice.joined := rfl
@[simp] theorem State.setNoticePath_notice_offers (s : State) (p : List PathItem) :
    (s.setNoticePath p).notice.offers = s.notice.offers := rfl
@[simp] theorem State.setNoticePath_notice_path (s : State) (p : List PathItem) :
    (s.setNoticePath p).notice.path = p := rfl
@[simp] theorem State.setNoticePath_settings (s : State) (p : List PathItem) :
    (s.setNoticePath p).settings = s.settings := rfl
@[simp] theorem State.setNoticePath_timeBase (s : State) (p : List PathItem) :
    (s.setNoticePath p).timeBase = s.timeBase := rfl
@[simp] theorem State.setNoticePath_resetn (s : State) (p : List PathItem) :
    (s.setNoticePath p).resetn = s.resetn := rfl
@[simp] theorem State.setNoticePath_pending (s : State) (p : List PathItem) :
    (s.setNoticePath p).pending = s.pending := rfl

@[simp] theorem State.offer_presence (s : State) (h : HostId) (n : Notice) (k : Option Nat) :
    (s.offer h n k).presence = s.presence := rfl
@[simp] theorem State.offer_ports (s : State) (h : HostId) (n : Notice) (k : Option Nat) :
    (s.offer h n k).ports = s.ports := rfl
@[simp] theorem State.offer_dir (s : State) (h : HostId) (n : Notice) (k : Option Nat) :
    (s.offer h n k).dir = s.dir := rfl
@[simp] theorem State.offer_store (s : State) (h : HostId) (n : Notice) (k : Option Nat) :
    (s.offer h n k).store = s.store := rfl
@[simp] theorem State.offer_notice_rings (s : State) (h : HostId) (n : Notice) (k : Option Nat) :
    (s.offer h n k).notice.rings = s.notice.rings := rfl
@[simp] theorem State.offer_notice_lost (s : State) (h : HostId) (n : Notice) (k : Option Nat) :
    (s.offer h n k).notice.lost = s.notice.lost := rfl
@[simp] theorem State.offer_notice_joined (s : State) (h : HostId) (n : Notice) (k : Option Nat) :
    (s.offer h n k).notice.joined = s.notice.joined := rfl
@[simp] theorem State.offer_notice_offers (s : State) (h : HostId) (n : Notice) (k : Option Nat) :
    (s.offer h n k).notice.offers = upd s.notice.offers h (s.notice.offers.get h ++ [⟨n, k⟩]) := rfl
@[simp] theorem State.offer_notice_path (s : State) (h : HostId) (n : Notice) (k : Option Nat) :
    (s.offer h n k).notice.path = s.notice.path := rfl
@[simp] theorem State.offer_settings (s : State) (h : HostId) (n : Notice) (k : Option Nat) :
    (s.offer h n k).settings = s.settings := rfl
@[simp] theorem State.offer_timeBase (s : State) (h : HostId) (n : Notice) (k : Option Nat) :
    (s.offer h n k).timeBase = s.timeBase := rfl
@[simp] theorem State.offer_resetn (s : State) (h : HostId) (n : Notice) (k : Option Nat) :
    (s.offer h n k).resetn = s.resetn := rfl
@[simp] theorem State.offer_pending (s : State) (h : HostId) (n : Notice) (k : Option Nat) :
    (s.offer h n k).pending = s.pending := rfl

@[simp] theorem State.setSettingsPath_presence (s : State) (p : List PathItem) :
    (s.setSettingsPath p).presence = s.presence := rfl
@[simp] theorem State.setSettingsPath_ports (s : State) (p : List PathItem) :
    (s.setSettingsPath p).ports = s.ports := rfl
@[simp] theorem State.setSettingsPath_dir (s : State) (p : List PathItem) : (s.setSettingsPath p).dir = s.dir := rfl
@[simp] theorem State.setSettingsPath_store (s : State) (p : List PathItem) :
    (s.setSettingsPath p).store = s.store := rfl
@[simp] theorem State.setSettingsPath_notice (s : State) (p : List PathItem) :
    (s.setSettingsPath p).notice = s.notice := rfl
@[simp] theorem State.setSettingsPath_settings_tickDiv (s : State) (p : List PathItem) :
    (s.setSettingsPath p).settings.tickDiv = s.settings.tickDiv := rfl
@[simp] theorem State.setSettingsPath_settings_presenceTerm (s : State) (p : List PathItem) :
    (s.setSettingsPath p).settings.presenceTerm = s.settings.presenceTerm := rfl
@[simp] theorem State.setSettingsPath_settings_descQuota (s : State) (p : List PathItem) :
    (s.setSettingsPath p).settings.descQuota = s.settings.descQuota := rfl
@[simp] theorem State.setSettingsPath_settings_cellQuota (s : State) (p : List PathItem) :
    (s.setSettingsPath p).settings.cellQuota = s.settings.cellQuota := rfl
@[simp] theorem State.setSettingsPath_settings_inboundLimit (s : State) (p : List PathItem) :
    (s.setSettingsPath p).settings.inboundLimit = s.settings.inboundLimit := rfl
@[simp] theorem State.setSettingsPath_settings_spaceHold (s : State) (p : List PathItem) :
    (s.setSettingsPath p).settings.spaceHold = s.settings.spaceHold := rfl
@[simp] theorem State.setSettingsPath_settings_corrected (s : State) (p : List PathItem) :
    (s.setSettingsPath p).settings.corrected = s.settings.corrected := rfl
@[simp] theorem State.setSettingsPath_settings_uncorrected (s : State) (p : List PathItem) :
    (s.setSettingsPath p).settings.uncorrected = s.settings.uncorrected := rfl
@[simp] theorem State.setSettingsPath_settings_correctedDue (s : State) (p : List PathItem) :
    (s.setSettingsPath p).settings.correctedDue = s.settings.correctedDue := rfl
@[simp] theorem State.setSettingsPath_settings_uncorrectedDue (s : State) (p : List PathItem) :
    (s.setSettingsPath p).settings.uncorrectedDue = s.settings.uncorrectedDue := rfl
@[simp] theorem State.setSettingsPath_settings_path (s : State) (p : List PathItem) :
    (s.setSettingsPath p).settings.path = p := rfl
@[simp] theorem State.setSettingsPath_timeBase (s : State) (p : List PathItem) :
    (s.setSettingsPath p).timeBase = s.timeBase := rfl
@[simp] theorem State.setSettingsPath_resetn (s : State) (p : List PathItem) :
    (s.setSettingsPath p).resetn = s.resetn := rfl
@[simp] theorem State.setSettingsPath_pending (s : State) (p : List PathItem) :
    (s.setSettingsPath p).pending = s.pending := rfl

@[simp] theorem State.raiseCorrected_presence (s : State) : s.raiseCorrected.presence = s.presence := rfl
@[simp] theorem State.raiseCorrected_ports (s : State) : s.raiseCorrected.ports = s.ports := rfl
@[simp] theorem State.raiseCorrected_dir (s : State) : s.raiseCorrected.dir = s.dir := rfl
@[simp] theorem State.raiseCorrected_store (s : State) : s.raiseCorrected.store = s.store := rfl
@[simp] theorem State.raiseCorrected_notice (s : State) : s.raiseCorrected.notice = s.notice := rfl
@[simp] theorem State.raiseCorrected_settings_tickDiv (s : State) :
    s.raiseCorrected.settings.tickDiv = s.settings.tickDiv := rfl
@[simp] theorem State.raiseCorrected_settings_presenceTerm (s : State) :
    s.raiseCorrected.settings.presenceTerm = s.settings.presenceTerm := rfl
@[simp] theorem State.raiseCorrected_settings_descQuota (s : State) :
    s.raiseCorrected.settings.descQuota = s.settings.descQuota := rfl
@[simp] theorem State.raiseCorrected_settings_cellQuota (s : State) :
    s.raiseCorrected.settings.cellQuota = s.settings.cellQuota := rfl
@[simp] theorem State.raiseCorrected_settings_inboundLimit (s : State) :
    s.raiseCorrected.settings.inboundLimit = s.settings.inboundLimit := rfl
@[simp] theorem State.raiseCorrected_settings_spaceHold (s : State) :
    s.raiseCorrected.settings.spaceHold = s.settings.spaceHold := rfl
@[simp] theorem State.raiseCorrected_settings_corrected (s : State) :
    s.raiseCorrected.settings.corrected = s.settings.corrected := rfl
@[simp] theorem State.raiseCorrected_settings_uncorrected (s : State) :
    s.raiseCorrected.settings.uncorrected = s.settings.uncorrected := rfl
@[simp] theorem State.raiseCorrected_settings_correctedDue (s : State) :
    s.raiseCorrected.settings.correctedDue = s.settings.correctedDue + 1 := rfl
@[simp] theorem State.raiseCorrected_settings_uncorrectedDue (s : State) :
    s.raiseCorrected.settings.uncorrectedDue = s.settings.uncorrectedDue := rfl
@[simp] theorem State.raiseCorrected_settings_path (s : State) : s.raiseCorrected.settings.path = s.settings.path := rfl
@[simp] theorem State.raiseCorrected_timeBase (s : State) : s.raiseCorrected.timeBase = s.timeBase := rfl
@[simp] theorem State.raiseCorrected_resetn (s : State) : s.raiseCorrected.resetn = s.resetn := rfl
@[simp] theorem State.raiseCorrected_pending (s : State) : s.raiseCorrected.pending = s.pending := rfl

@[simp] theorem State.raiseUncorrected_presence (s : State) : s.raiseUncorrected.presence = s.presence := rfl
@[simp] theorem State.raiseUncorrected_ports (s : State) : s.raiseUncorrected.ports = s.ports := rfl
@[simp] theorem State.raiseUncorrected_dir (s : State) : s.raiseUncorrected.dir = s.dir := rfl
@[simp] theorem State.raiseUncorrected_store (s : State) : s.raiseUncorrected.store = s.store := rfl
@[simp] theorem State.raiseUncorrected_notice (s : State) : s.raiseUncorrected.notice = s.notice := rfl
@[simp] theorem State.raiseUncorrected_settings_tickDiv (s : State) :
    s.raiseUncorrected.settings.tickDiv = s.settings.tickDiv := rfl
@[simp] theorem State.raiseUncorrected_settings_presenceTerm (s : State) :
    s.raiseUncorrected.settings.presenceTerm = s.settings.presenceTerm := rfl
@[simp] theorem State.raiseUncorrected_settings_descQuota (s : State) :
    s.raiseUncorrected.settings.descQuota = s.settings.descQuota := rfl
@[simp] theorem State.raiseUncorrected_settings_cellQuota (s : State) :
    s.raiseUncorrected.settings.cellQuota = s.settings.cellQuota := rfl
@[simp] theorem State.raiseUncorrected_settings_inboundLimit (s : State) :
    s.raiseUncorrected.settings.inboundLimit = s.settings.inboundLimit := rfl
@[simp] theorem State.raiseUncorrected_settings_spaceHold (s : State) :
    s.raiseUncorrected.settings.spaceHold = s.settings.spaceHold := rfl
@[simp] theorem State.raiseUncorrected_settings_corrected (s : State) :
    s.raiseUncorrected.settings.corrected = s.settings.corrected := rfl
@[simp] theorem State.raiseUncorrected_settings_uncorrected (s : State) :
    s.raiseUncorrected.settings.uncorrected = s.settings.uncorrected := rfl
@[simp] theorem State.raiseUncorrected_settings_correctedDue (s : State) :
    s.raiseUncorrected.settings.correctedDue = s.settings.correctedDue := rfl
@[simp] theorem State.raiseUncorrected_settings_uncorrectedDue (s : State) :
    s.raiseUncorrected.settings.uncorrectedDue = s.settings.uncorrectedDue + 1 := rfl
@[simp] theorem State.raiseUncorrected_settings_path (s : State) :
    s.raiseUncorrected.settings.path = s.settings.path := rfl
@[simp] theorem State.raiseUncorrected_timeBase (s : State) : s.raiseUncorrected.timeBase = s.timeBase := rfl
@[simp] theorem State.raiseUncorrected_resetn (s : State) : s.raiseUncorrected.resetn = s.resetn := rfl
@[simp] theorem State.raiseUncorrected_pending (s : State) : s.raiseUncorrected.pending = s.pending := rfl

@[simp] theorem State.setOverrun_presence (s : State) (h : HostId) : (s.setOverrun h).presence = s.presence := rfl
@[simp] theorem State.setOverrun_dir (s : State) (h : HostId) : (s.setOverrun h).dir = s.dir := rfl
@[simp] theorem State.setOverrun_store (s : State) (h : HostId) : (s.setOverrun h).store = s.store := rfl
@[simp] theorem State.setOverrun_notice (s : State) (h : HostId) : (s.setOverrun h).notice = s.notice := rfl
@[simp] theorem State.setOverrun_settings (s : State) (h : HostId) : (s.setOverrun h).settings = s.settings := rfl
@[simp] theorem State.setOverrun_timeBase (s : State) (h : HostId) : (s.setOverrun h).timeBase = s.timeBase := rfl
@[simp] theorem State.setOverrun_resetn (s : State) (h : HostId) : (s.setOverrun h).resetn = s.resetn := rfl
@[simp] theorem State.setOverrun_pending (s : State) (h : HostId) : (s.setOverrun h).pending = s.pending := rfl

@[simp] theorem State.sendReply_presence (s : State) (h : HostId) (r : Reply) :
    (s.sendReply h r).presence = s.presence := rfl
@[simp] theorem State.sendReply_dir (s : State) (h : HostId) (r : Reply) : (s.sendReply h r).dir = s.dir := rfl
@[simp] theorem State.sendReply_store (s : State) (h : HostId) (r : Reply) : (s.sendReply h r).store = s.store := rfl
@[simp] theorem State.sendReply_notice (s : State) (h : HostId) (r : Reply) : (s.sendReply h r).notice = s.notice := rfl
@[simp] theorem State.sendReply_settings (s : State) (h : HostId) (r : Reply) :
    (s.sendReply h r).settings = s.settings := rfl
@[simp] theorem State.sendReply_timeBase (s : State) (h : HostId) (r : Reply) :
    (s.sendReply h r).timeBase = s.timeBase := rfl
@[simp] theorem State.sendReply_resetn (s : State) (h : HostId) (r : Reply) : (s.sendReply h r).resetn = s.resetn := rfl
@[simp] theorem State.sendReply_pending (s : State) (h : HostId) (r : Reply) :
    (s.sendReply h r).pending = s.pending := rfl

@[simp] theorem State.reply_presence (s : State) (h : HostId) (id : Nat) (st : Status) (ws : List Word) :
    (s.reply h id st ws).presence = s.presence := rfl
@[simp] theorem State.reply_dir (s : State) (h : HostId) (id : Nat) (st : Status) (ws : List Word) :
    (s.reply h id st ws).dir = s.dir := rfl
@[simp] theorem State.reply_store (s : State) (h : HostId) (id : Nat) (st : Status) (ws : List Word) :
    (s.reply h id st ws).store = s.store := rfl
@[simp] theorem State.reply_notice (s : State) (h : HostId) (id : Nat) (st : Status) (ws : List Word) :
    (s.reply h id st ws).notice = s.notice := rfl
@[simp] theorem State.reply_settings (s : State) (h : HostId) (id : Nat) (st : Status) (ws : List Word) :
    (s.reply h id st ws).settings = s.settings := rfl
@[simp] theorem State.reply_timeBase (s : State) (h : HostId) (id : Nat) (st : Status) (ws : List Word) :
    (s.reply h id st ws).timeBase = s.timeBase := rfl
@[simp] theorem State.reply_resetn (s : State) (h : HostId) (id : Nat) (st : Status) (ws : List Word) :
    (s.reply h id st ws).resetn = s.resetn := rfl
@[simp] theorem State.reply_pending (s : State) (h : HostId) (id : Nat) (st : Status) (ws : List Word) :
    (s.reply h id st ws).pending = s.pending := rfl

@[simp] theorem State.returnWord_presence (s : State) (h : HostId) (w : Word) :
    (s.returnWord h w).presence = s.presence := rfl
@[simp] theorem State.returnWord_dir (s : State) (h : HostId) (w : Word) : (s.returnWord h w).dir = s.dir := rfl
@[simp] theorem State.returnWord_store (s : State) (h : HostId) (w : Word) : (s.returnWord h w).store = s.store := rfl
@[simp] theorem State.returnWord_notice (s : State) (h : HostId) (w : Word) :
    (s.returnWord h w).notice = s.notice := rfl
@[simp] theorem State.returnWord_settings (s : State) (h : HostId) (w : Word) :
    (s.returnWord h w).settings = s.settings := rfl
@[simp] theorem State.returnWord_timeBase (s : State) (h : HostId) (w : Word) :
    (s.returnWord h w).timeBase = s.timeBase := rfl
@[simp] theorem State.returnWord_resetn (s : State) (h : HostId) (w : Word) :
    (s.returnWord h w).resetn = s.resetn := rfl
@[simp] theorem State.returnWord_pending (s : State) (h : HostId) (w : Word) :
    (s.returnWord h w).pending = s.pending := rfl

@[simp] theorem State.takeWritten_presence (s : State) (h : HostId) : (s.takeWritten h).presence = s.presence := rfl
@[simp] theorem State.takeWritten_dir (s : State) (h : HostId) : (s.takeWritten h).dir = s.dir := rfl
@[simp] theorem State.takeWritten_store (s : State) (h : HostId) : (s.takeWritten h).store = s.store := rfl
@[simp] theorem State.takeWritten_notice (s : State) (h : HostId) : (s.takeWritten h).notice = s.notice := rfl
@[simp] theorem State.takeWritten_settings (s : State) (h : HostId) : (s.takeWritten h).settings = s.settings := rfl
@[simp] theorem State.takeWritten_timeBase (s : State) (h : HostId) : (s.takeWritten h).timeBase = s.timeBase := rfl
@[simp] theorem State.takeWritten_resetn (s : State) (h : HostId) : (s.takeWritten h).resetn = s.resetn := rfl
@[simp] theorem State.takeWritten_pending (s : State) (h : HostId) : (s.takeWritten h).pending = s.pending := rfl

/-! ## Accessors after an update -/
@[simp] theorem State.setPort_port_same (s : State) (h : HostId) (x : Port) :
    (s.setPort h x).port h = x := by
  simp [State.port]

theorem State.setPort_port_ne (s : State) (h h' : HostId) (x : Port) (ne : h ≠ h') :
    (s.setPort h x).port h' = s.port h' := by
  simp [State.port, upd_get_ne _ _ ne]
@[simp] theorem State.setRecord_record_same (s : State) (h : HostId) (x : PresenceRecord) :
    (s.setRecord h x).record h = x := by
  simp [State.record]

theorem State.setRecord_record_ne (s : State) (h h' : HostId) (x : PresenceRecord) (ne : h ≠ h') :
    (s.setRecord h x).record h' = s.record h' := by
  simp [State.record, upd_get_ne _ _ ne]
@[simp] theorem State.putEntry_entry_same (s : State) (l : LeaseId) (x : LeaseEntry) :
    (s.putEntry l x).entry l = x := by
  simp [State.entry]

theorem State.putEntry_entry_ne (s : State) (l l' : LeaseId) (x : LeaseEntry) (ne : l ≠ l') :
    (s.putEntry l x).entry l' = s.entry l' := by
  simp [State.entry, upd_get_ne _ _ ne]
@[simp] theorem State.setWait_wait_same (s : State) (h : HostId) (x : Option WaitRecord) :
    (s.setWait h x).wait h = x := by
  simp [State.wait]

theorem State.setWait_wait_ne (s : State) (h h' : HostId) (x : Option WaitRecord) (ne : h ≠ h') :
    (s.setWait h x).wait h' = s.wait h' := by
  simp [State.wait, upd_get_ne _ _ ne]
@[simp] theorem State.putDesc_desc_same (s : State) (d : DescId) (x : Descriptor) :
    (s.putDesc d x).desc d = x := by
  simp [State.desc]

theorem State.putDesc_desc_ne (s : State) (d d' : DescId) (x : Descriptor) (ne : d ≠ d') :
    (s.putDesc d x).desc d' = s.desc d' := by
  simp [State.desc, upd_get_ne _ _ ne]
@[simp] theorem State.putMap_mapEntry_same (s : State) (c : CellId) (x : MapEntry) :
    (s.putMap c x).mapEntry c = x := by
  simp [State.mapEntry]

theorem State.putMap_mapEntry_ne (s : State) (c c' : CellId) (x : MapEntry) (ne : c ≠ c') :
    (s.putMap c x).mapEntry c' = s.mapEntry c' := by
  simp [State.mapEntry, upd_get_ne _ _ ne]
@[simp] theorem State.setSpace_space_same (s : State) (h : HostId) (x : SpaceRecord) :
    (s.setSpace h x).space h = x := by
  simp [State.space]

theorem State.setSpace_space_ne (s : State) (h h' : HostId) (x : SpaceRecord) (ne : h ≠ h') :
    (s.setSpace h x).space h' = s.space h' := by
  simp [State.space, upd_get_ne _ _ ne]
@[simp] theorem State.setStream_stream_same (s : State) (h : HostId) (x : StreamRecord) :
    (s.setStream h x).stream h = x := by
  simp [State.stream]

theorem State.setStream_stream_ne (s : State) (h h' : HostId) (x : StreamRecord) (ne : h ≠ h') :
    (s.setStream h x).stream h' = s.stream h' := by
  simp [State.stream, upd_get_ne _ _ ne]
/-! ## Accessors and the blocks they read -/

theorem State.port_congr {s t : State} (e : t.ports = s.ports) (h : HostId) : t.port h = s.port h := by
  simp [State.port, e]

theorem State.record_congr {s t : State} (e : t.presence = s.presence) (h : HostId) : t.record h = s.record h := by
  simp [State.record, e]

theorem State.entry_congr {s t : State} (e : t.dir.entries = s.dir.entries) (l : LeaseId) : t.entry l = s.entry l := by
  simp [State.entry, e]

theorem State.wait_congr {s t : State} (e : t.dir.waits = s.dir.waits) (h : HostId) : t.wait h = s.wait h := by
  simp [State.wait, e]

theorem State.desc_congr {s t : State} (e : t.store.descs = s.store.descs) (d : DescId) : t.desc d = s.desc d := by
  simp [State.desc, e]

theorem State.mapEntry_congr {s t : State} (e : t.store.map = s.store.map) (c : CellId) :
    t.mapEntry c = s.mapEntry c := by
  simp [State.mapEntry, e]

theorem State.space_congr {s t : State} (e : t.store.space = s.store.space) (h : HostId) : t.space h = s.space h := by
  simp [State.space, e]

theorem State.stream_congr {s t : State} (e : t.store.streams = s.store.streams) (h : HostId) :
    t.stream h = s.stream h := by
  simp [State.stream, e]

theorem State.queue_congr {s t : State} (e : t.store.inbound = s.store.inbound) (h : HostId) : t.queue h = s.queue h := by
  simp [State.queue, e]

end Sys2Proof.Machine
end

