-- ==== Sys2Proof/Laws/Blocks.lean ====
section
/-! SUPPORT. What the work inside the directory and the store cannot touch: every shared operation of the two blocks
leaves alone the presence unit, the ports, the rings, the settings, the time base, the pins, the queue, the command
paths and each block's count of JOINED hosts. One lemma for each operation. -/

namespace Sys2Proof.Machine

open Sys2Proof

/-- The second state differs from the first at most in lease entries, wait records, the store's objects, the notices on
their way, and the findings still to be counted. -/
structure BlockWork (s t : State) : Prop where
  presence : t.presence = s.presence
  ports : t.ports = s.ports
  timeBase : t.timeBase = s.timeBase
  resetn : t.resetn = s.resetn
  pending : t.pending = s.pending
  dirJoined : t.dir.joined = s.dir.joined
  departing : t.dir.departing = s.dir.departing
  dirPath : t.dir.path = s.dir.path
  dirTicks : t.dir.ticks = s.dir.ticks
  rings : t.notice.rings = s.notice.rings
  lost : t.notice.lost = s.notice.lost
  noticeJoined : t.notice.joined = s.notice.joined
  noticePath : t.notice.path = s.notice.path
  tickDiv : t.settings.tickDiv = s.settings.tickDiv
  presenceTerm : t.settings.presenceTerm = s.settings.presenceTerm
  descQuota : t.settings.descQuota = s.settings.descQuota
  cellQuota : t.settings.cellQuota = s.settings.cellQuota
  inboundLimit : t.settings.inboundLimit = s.settings.inboundLimit
  spaceHold : t.settings.spaceHold = s.settings.spaceHold
  corrected : t.settings.corrected = s.settings.corrected
  uncorrected : t.settings.uncorrected = s.settings.uncorrected
  settingsPath : t.settings.path = s.settings.path
  storeJoined : t.store.joined = s.store.joined
  storeDescQuota : t.store.descQuota = s.store.descQuota
  storeCellQuota : t.store.cellQuota = s.store.cellQuota
  storeInboundLimit : t.store.inboundLimit = s.store.inboundLimit
  changes : t.store.changes = s.store.changes
  storePath : t.store.path = s.store.path
  storeTicks : t.store.ticks = s.store.ticks

theorem BlockWork.refl (s : State) : BlockWork s s := by constructor <;> rfl

theorem BlockWork.trans {s t u : State} (a : BlockWork s t) (b : BlockWork t u) : BlockWork s u := by
  constructor
  · exact b.presence.trans a.presence
  · exact b.ports.trans a.ports
  · exact b.timeBase.trans a.timeBase
  · exact b.resetn.trans a.resetn
  · exact b.pending.trans a.pending
  · exact b.dirJoined.trans a.dirJoined
  · exact b.departing.trans a.departing
  · exact b.dirPath.trans a.dirPath
  · exact b.dirTicks.trans a.dirTicks
  · exact b.rings.trans a.rings
  · exact b.lost.trans a.lost
  · exact b.noticeJoined.trans a.noticeJoined
  · exact b.noticePath.trans a.noticePath
  · exact b.tickDiv.trans a.tickDiv
  · exact b.presenceTerm.trans a.presenceTerm
  · exact b.descQuota.trans a.descQuota
  · exact b.cellQuota.trans a.cellQuota
  · exact b.inboundLimit.trans a.inboundLimit
  · exact b.spaceHold.trans a.spaceHold
  · exact b.corrected.trans a.corrected
  · exact b.uncorrected.trans a.uncorrected
  · exact b.settingsPath.trans a.settingsPath
  · exact b.storeJoined.trans a.storeJoined
  · exact b.storeDescQuota.trans a.storeDescQuota
  · exact b.storeCellQuota.trans a.storeCellQuota
  · exact b.storeInboundLimit.trans a.storeInboundLimit
  · exact b.changes.trans a.changes
  · exact b.storePath.trans a.storePath
  · exact b.storeTicks.trans a.storeTicks

/-- A fold whose every step does only such work does only such work. -/
theorem BlockWork.foldl {α : Type} (f : State → α → State) (step : ∀ s x, BlockWork s (f s x)) (xs : List α)
    (s : State) : BlockWork s (xs.foldl f s) := by
  induction xs generalizing s with
  | nil => exact .refl s
  | cons x xs ih => exact (step s x).trans (ih (f s x))

/-! ## Single updates -/

theorem putEntry_work (s : State) (l : LeaseId) (e : LeaseEntry) : BlockWork s (s.putEntry l e) := by constructor <;> rfl

theorem setWait_work (s : State) (h : HostId) (r : Option WaitRecord) : BlockWork s (s.setWait h r) := by
  constructor <;> rfl

theorem offer_work (s : State) (h : HostId) (n : Notice) (k : Option Nat) : BlockWork s (s.offer h n k) := by
  constructor <;> rfl

theorem offerDir_work (s : State) (h : HostId) (n : Notice) : BlockWork s (s.offerDir h n) := offer_work ..

theorem offerStore_work (s : State) (h : HostId) (n : Notice) : BlockWork s (s.offerStore h n) := offer_work ..

theorem raiseCorrected_work (s : State) : BlockWork s s.raiseCorrected := by constructor <;> rfl

theorem raiseUncorrected_work (s : State) : BlockWork s s.raiseUncorrected := by constructor <;> rfl

theorem putDesc_work (s : State) (d : DescId) (x : Descriptor) : BlockWork s (s.putDesc d x) := by constructor <;> rfl

theorem putMap_work (s : State) (c : CellId) (x : MapEntry) : BlockWork s (s.putMap c x) := by constructor <;> rfl

theorem setSpace_work (s : State) (h : HostId) (r : SpaceRecord) : BlockWork s (s.setSpace h r) := by
  constructor <;> rfl

theorem setStream_work (s : State) (h : HostId) (r : StreamRecord) : BlockWork s (s.setStream h r) := by
  constructor <;> rfl

theorem setCellChk_work (s : State) (c : CellId) (k : Check) : BlockWork s (s.setCellChk c k) := by constructor <;> rfl

theorem dirFinding_work (s : State) (l : LeaseId) : BlockWork s (s.dirFinding l) := by
  unfold State.dirFinding
  refine (raiseUncorrected_work s).trans (.foldl _ (fun s g => ?_) _ _)
  split
  · exact offerDir_work ..
  · exact .refl s

theorem storeFinding_work (s : State) (k : ObjectKind) (i : Nat) : BlockWork s (s.storeFinding k i) := by
  unfold State.storeFinding
  refine (raiseUncorrected_work s).trans (.foldl _ (fun s g => ?_) _ _)
  split
  · exact offerStore_work ..
  · exact .refl s

/-! ## The directory's operations -/

theorem rebuildEntry_work (l : LeaseId) (s : State) : BlockWork s (rebuildEntry l s) := by
  unfold rebuildEntry
  refine (putEntry_work ..).trans (.foldl _ (fun s h => ?_) _ _)
  split
  · split
    · exact (setWait_work ..).trans (offerDir_work ..)
    · exact .refl s
  · exact .refl s

theorem readEntry_work (l : LeaseId) (s : State) : BlockWork s (readEntry l s).2 := by
  unfold readEntry
  split
  · exact .refl s
  · exact (putEntry_work ..).trans (raiseCorrected_work _)
  · dsimp only
    exact (rebuildEntry_work l s).trans (dirFinding_work _ l)

theorem completeUpgrade_work (l : LeaseId) (h : HostId) (s : State) : BlockWork s (completeUpgrade l h s) :=
  ((putEntry_work ..).trans (setWait_work ..)).trans (offerDir_work ..)

theorem grantExclusive_work (l : LeaseId) (h : HostId) (rest : List (HostId × LeaseMode)) (s : State) :
    BlockWork s (grantExclusive l h rest s) :=
  ((putEntry_work ..).trans (setWait_work ..)).trans (offerDir_work ..)

theorem grantSharedHost_work (l : LeaseId) (s : State) (w : HostId × LeaseMode) :
    BlockWork s (grantSharedHost l s w) :=
  (setWait_work ..).trans (offerDir_work ..)

theorem grantSharedRun_work (l : LeaseId) (s : State) : BlockWork s (grantSharedRun l s).1 :=
  (putEntry_work ..).trans (.foldl _ (grantSharedHost_work l) _ _)

theorem grantScan_work (l : LeaseId) (s : State) : BlockWork s (grantScan l s).1 := by
  unfold grantScan
  dsimp only
  split
  · split
    · exact completeUpgrade_work ..
    · exact .refl s
  · split
    · exact grantExclusive_work ..
    · exact grantSharedRun_work ..
    · exact grantSharedRun_work ..
    · exact .refl s

theorem dropHolder_work (l : LeaseId) (h : HostId) (s : State) : BlockWork s (dropHolder l h s).1 := by
  unfold dropHolder
  dsimp only
  split
  · exact ((setWait_work ..).trans (putEntry_work ..)).trans (grantScan_work ..)
  · exact (putEntry_work ..).trans (grantScan_work ..)

theorem dropClaimWait_work (l : LeaseId) (h : HostId) (s : State) : BlockWork s (dropClaimWait l h s).1 := by
  unfold dropClaimWait
  have base : BlockWork s ((s.putEntry l ((s.entry l).dropWaiter h)).setWait h none) :=
    (putEntry_work ..).trans (setWait_work ..)
  dsimp only
  split
  · exact base
  · exact base.trans (grantScan_work ..)

theorem dropUpgrade_work (l : LeaseId) (h : HostId) (s : State) : BlockWork s (dropUpgrade l h s).1 := by
  unfold dropUpgrade
  have base : BlockWork s ((s.putEntry l { s.entry l with upgrade := none }).setWait h none) :=
    (putEntry_work ..).trans (setWait_work ..)
  dsimp only
  split
  · exact base
  · exact base.trans (grantScan_work ..)

theorem offerStranded_work (l : LeaseId) (o : Option HostId) (c : StrandedCause) (s : State) :
    BlockWork s (offerStranded l o c s) :=
  .foldl _ (fun _ _ => offerDir_work ..) _ _

theorem strandEntry_work (l : LeaseId) (c : StrandedCause) (s : State) : BlockWork s (strandEntry l c s) :=
  (putEntry_work ..).trans (offerStranded_work ..)

theorem departAtLease_work (h : HostId) (l : LeaseId) (s : State) : BlockWork s (departAtLease h l s) := by
  unfold departAtLease
  have r := readEntry_work l s
  split
  · next e => rw [e] at r; exact r
  · next e =>
    rw [e] at r
    refine r.trans ?_
    dsimp only
    split
    · exact dropHolder_work ..
    · split
      · exact strandEntry_work ..
      · split
        · exact putEntry_work ..
        · split
          · exact dropClaimWait_work ..
          · exact .refl _

theorem charterCheck_work (h : HostId) (s : State) : BlockWork s (charterCheck h s).2 := by
  unfold charterCheck
  have r := readEntry_work 0 s
  split <;> · next e => rw [e] at r; exact r

theorem failEntry_work (l : LeaseId) (s : State) : BlockWork s (failEntry l s).2 := by
  unfold failEntry
  dsimp only
  split
  · exact putEntry_work ..
  · exact strandEntry_work ..

theorem transferFailed_work (l : LeaseId) (d : DescId) (s : State) : BlockWork s (transferFailed l d s).2 := by
  unfold transferFailed
  have r := readEntry_work l s
  split
  · next e => rw [e] at r; exact r
  · next e =>
    rw [e] at r
    split
    · exact r.trans (failEntry_work ..)
    · exact r

theorem transfersLost_work (d : DescId) (s : State) : BlockWork s (transfersLost d s) := by
  refine .foldl _ (fun s l => ?_) _ _
  have r := readEntry_work l s
  split
  · next e => rw [e] at r; exact r
  · next e =>
    rw [e] at r
    split
    · exact r.trans (failEntry_work ..)
    · exact r

theorem completeEntry_work (l : LeaseId) (h : HostId) (s : State) : BlockWork s (completeEntry l h s).2 := by
  unfold completeEntry
  have key : ∀ (b : Bool) (u : State), BlockWork s u → BlockWork s (if b then u.setWait h none else u) := by
    intro b u w
    cases b
    · exact w
    · exact w.trans (setWait_work ..)
  have base := key (s.claimsLease h l) _ (putEntry_work s l
    { ((s.entry l).enterExclusive h).dropWaiter h with transit := none, ownerPresent := false })
  dsimp only
  split
  · exact base.trans (offerDir_work ..)
  · exact base

theorem transferAccepted_work (l : LeaseId) (d : DescId) (h : HostId) (s : State) :
    BlockWork s (transferAccepted l d h s).2 := by
  unfold transferAccepted
  have r := readEntry_work l s
  split
  · next e => rw [e] at r; exact r
  · next e =>
    rw [e] at r
    split
    · exact r.trans (completeEntry_work ..)
    · exact r

theorem readOptEntry_work (l : Option LeaseId) (s : State) : BlockWork s (readOptEntry l s).2 := by
  cases l
  · exact .refl s
  · exact readEntry_work ..

theorem commitQuestion_work (h : HostId) (d : DescId) (m : Message) (s : State) :
    BlockWork s (commitQuestion h d m s).2 := by
  unfold commitQuestion
  have r := (readOptEntry_work (m.fence.map Prod.fst) s).trans (readOptEntry_work m.carried _)
  dsimp only
  split
  · exact r
  · split
    · exact r
    · split
      · exact r
      · split
        · exact r
        · split
          · exact r
          · exact r.trans (putEntry_work ..)

theorem openQuestion_work (d : DescId) (m : Message) (s : State) : BlockWork s (openQuestion d m s).2 :=
  (readOptEntry_work (m.fence.map Prod.fst) s).trans (readOptEntry_work m.carried _)

/-! ## The store's operations -/

theorem readMapEntry_work (s : State) (c : CellId) : BlockWork s (readMapEntry s c) := by
  unfold readMapEntry
  split
  · exact .refl s
  · exact (putMap_work ..).trans (raiseCorrected_work _)
  · exact (putMap_work ..).trans (storeFinding_work ..)

theorem readMap_work (s : State) : BlockWork s (readMap s) := .foldl _ readMapEntry_work _ _

theorem freeOwned_work (d : DescId) (lo : Nat) (s : State) : BlockWork s (freeOwned d lo s) := by
  refine .foldl _ (fun s c => ?_) _ _
  split
  · exact putMap_work ..
  · exact .refl s

theorem takeCells_work (d : DescId) (pos n : Nat) (s : State) : BlockWork s (takeCells d pos n s) :=
  .foldl _ (fun _ _ => putMap_work ..) _ _

theorem unlinkDesc_work (d : DescId) (s : State) : BlockWork s (unlinkDesc d s) := by constructor <;> rfl

theorem readMapFor_work (d : DescId) (s : State) : BlockWork s (readMapFor d s) := by
  unfold readMapFor
  split
  · exact .refl s
  · exact readMap_work s

theorem clearDesc_work (d : DescId) (s : State) : BlockWork s (clearDesc d s) :=
  ((freeOwned_work d 0 s).trans (unlinkDesc_work d _)).trans (putDesc_work _ d _)

theorem freeDesc_work (d : DescId) (s : State) : BlockWork s (freeDesc d s) :=
  (readMapFor_work d s).trans (clearDesc_work d _)

theorem loseDescCore_work (d : DescId) (s : State) : BlockWork s (loseDescCore d s) :=
  (((readMap_work s).trans (clearDesc_work d _)).trans (storeFinding_work _ .descriptor d.val)).trans
    (transfersLost_work d _)

theorem readDescCore_work (d : DescId) (s : State) : BlockWork s (readDescCore d s).2 := by
  unfold readDescCore
  split
  · exact .refl s
  · exact (putDesc_work ..).trans (raiseCorrected_work _)
  · dsimp only
    exact loseDescCore_work d s

theorem readDescs_work (s : State) : BlockWork s (readDescs s).2 := by
  unfold readDescs
  suffices ∀ (ds : List DescId) (x : Bool × State), BlockWork x.2
      (ds.foldl (fun x d => ((readDescCore d x.2).1 || x.1, (readDescCore d x.2).2)) x).2 from this _ (false, s)
  intro ds
  induction ds with
  | nil => exact fun x => .refl x.2
  | cons d ds ih => exact fun x => (readDescCore_work d x.2).trans (ih ((readDescCore d x.2).1 || x.1, (readDescCore d x.2).2))

theorem leaveSpaceList_work (h : HostId) (s : State) : BlockWork s (leaveSpaceList h s) := by constructor <;> rfl

theorem grantSpace_work (h : HostId) (n : Nat) (s : State) : BlockWork s (grantSpace h n s) := by
  unfold grantSpace
  split
  · exact .refl s
  · next d _ =>
    have a := (putDesc_work s d ⟨.reserved, h, (s.store.joined.get h).getD 0, n, false, none⟩).trans
      (takeCells_work d 0 n _)
    exact a.trans ((leaveSpaceList_work h _).trans ((setSpace_work _ h _).trans (offerStore_work _ h _)))

theorem expireSpaceWait_work (h : HostId) (n : Nat) (s : State) : BlockWork s (expireSpaceWait h n s) :=
  (leaveSpaceList_work h s).trans ((setSpace_work _ h .empty).trans (offerStore_work _ h _))

theorem dropOverQuota_work (s : State) : BlockWork s (dropOverQuota s) := by
  refine .foldl _ (fun s h => ?_) _ _
  split
  · split
    · exact expireSpaceWait_work ..
    · exact .refl s
  all_goals exact .refl s

theorem scanHeads_work (hs : List HostId) (s : State) : BlockWork s (scanHeads hs s).1 := by
  induction hs generalizing s with
  | nil => exact .refl s
  | cons h rest ih =>
    unfold scanHeads
    split
    · split
      · exact (grantSpace_work ..).trans (ih _)
      · exact .refl s
    all_goals exact .refl s

theorem spaceScan_work (s : State) : BlockWork s (spaceScan s).1 := by
  unfold spaceScan
  have d := dropOverQuota_work s
  dsimp only
  split
  · exact d
  · exact (d.trans ((readDescs_work _).trans (readMap_work _))).trans (scanHeads_work ..)

theorem readForCount_work (s : State) : BlockWork s (readForCount s) := by
  unfold readForCount
  have d := (readDescs_work s).trans (readMap_work _)
  dsimp only
  split
  · exact d.trans (spaceScan_work _)
  · exact d

theorem readDesc_work (d : DescId) (s : State) : BlockWork s (readDesc d s).2 := by
  unfold readDesc
  have r := readDescCore_work d s
  dsimp only
  split
  · exact r.trans (spaceScan_work _)
  · exact r

theorem bounce_work (x : Descriptor) (m : Message) (r : BounceReason) (l : Option LeaseId) (s : State) :
    BlockWork s (bounce x m r l s) := by
  unfold bounce
  split
  · exact offerStore_work ..
  · exact .refl s

theorem failCarried_work (d : DescId) (m : Message) (s : State) : BlockWork s (failCarried d m s).2 := by
  unfold failCarried
  split
  · exact .refl s
  · exact transferFailed_work ..

theorem markDamaged_work (d : DescId) (s : State) : BlockWork s (markDamaged d s) := putDesc_work ..

theorem writeCell_work (c : CellId) (o : Nat) (bs : List Byte) (s : State) : BlockWork s (writeCell c o bs s) := by
  constructor <;> rfl

theorem readCell_work (d : DescId) (c : CellId) (s : State) : BlockWork s (readCell d c s) := by
  unfold readCell
  split
  · exact .refl s
  · exact (setCellChk_work ..).trans (raiseCorrected_work _)
  · exact (markDamaged_work d s).trans (storeFinding_work _ .cell c.val)

theorem appendBytes_work (d : DescId) (k : Nat) (bs : List Byte) (s : State) : BlockWork s (appendBytes d k bs s) := by
  unfold appendBytes
  have r := readMap_work s
  dsimp only
  split
  · exact r.trans (markDamaged_work ..)
  · split
    · exact r.trans (writeCell_work ..)
    · exact r.trans ((readCell_work ..).trans (writeCell_work ..))

theorem advanceWritten_work (d : DescId) (n : Nat) (s : State) : BlockWork s (advanceWritten d n s) := by
  unfold advanceWritten
  split
  · exact .refl s
  · exact putDesc_work ..

theorem fetchBytes_work (d : DescId) (k n : Nat) (s : State) : BlockWork s (fetchBytes d k n s).2 := by
  unfold fetchBytes
  have r := readMap_work s
  dsimp only
  split
  · exact r.trans (markDamaged_work ..)
  · next c _ =>
    dsimp only
    exact r.trans (readCell_work d c _)

end Sys2Proof.Machine
end

