-- ==== Sys2Proof/Laws/Directory.lean ====
section
/-! SUPPORT. What the directory's shared operations can do, said once: a read of an entry, and the grant scan. -/

namespace Sys2Proof.Machine

open Sys2Proof

/-- A read of an entry finds it sound, corrects it and counts that, or rebuilds it, counts that and offers FAULT. -/
theorem readEntry_cases (l : LeaseId) (s : State) :
    ((s.dir.entries.get l).chk = .sound ∧ readEntry l s = (false, s))
      ∨ ((s.dir.entries.get l).chk = .correctable ∧ readEntry l s = (false, (s.putEntry l (s.entry l)).raiseCorrected))
      ∨ ((s.dir.entries.get l).chk = .uncorrectable ∧ readEntry l s = (true, (rebuildEntry l s).dirFinding l)) := by
  unfold readEntry
  split <;> simp_all

/-- A sound entry is read without a change. -/
theorem readEntry_sound {l : LeaseId} {s : State} (e : (s.dir.entries.get l).chk = .sound) :
    readEntry l s = (false, s) := by
  simp [readEntry, e]

/-- A read that finds no uncorrectable error leaves the contents of every entry as they were. -/
theorem readEntry_entry {l l' : LeaseId} {s t : State} (e : readEntry l s = (false, t)) : t.entry l' = s.entry l' := by
  rcases readEntry_cases l s with ⟨_, r⟩ | ⟨_, r⟩ | ⟨_, r⟩
  · rw [r, Prod.mk.injEq] at e
    rw [e.2]
  · rw [r, Prod.mk.injEq] at e
    rw [← e.2]
    by_cases q : l = l'
    · subst q
      simp [State.entry]
    · simp [State.entry, upd_get_ne _ _ q]
  · rw [r, Prod.mk.injEq] at e
    cases e.1

/-- The grant scan does one of four things: nothing, a pending upgrade completed, the exclusive head granted, or the run
of shared waiters granted (R56). -/
theorem grantScan_cases (l : LeaseId) (s : State) :
    grantScan l s = (s, 0)
      ∨ (∃ u, (s.entry l).upgrade = some u ∧ (s.entry l).state = .shared ∧ (s.entry l).holders = HostSet.single u
          ∧ grantScan l s = (completeUpgrade l u s, 1))
      ∨ (∃ h rest, (s.entry l).upgrade = none ∧ (s.entry l).state = .free
          ∧ (s.entry l).waiters = (h, .exclusive) :: rest ∧ grantScan l s = (grantExclusive l h rest s, 1))
      ∨ (∃ h rest, (s.entry l).upgrade = none ∧ ((s.entry l).state = .free ∨ (s.entry l).state = .shared)
          ∧ (s.entry l).waiters = (h, .shared) :: rest ∧ grantScan l s = grantSharedRun l s) := by
  unfold grantScan
  dsimp only
  split
  · next u hu =>
    split
    · next g => exact .inr (.inl ⟨u, hu, g.1, g.2, rfl⟩)
    · exact .inl rfl
  · next hu =>
    split
    · next h rest a b => exact .inr (.inr (.inl ⟨h, rest, hu, a, b, rfl⟩))
    · next h rest a b => exact .inr (.inr (.inr ⟨h, rest, hu, .inl a, b, rfl⟩))
    · next h rest a b => exact .inr (.inr (.inr ⟨h, rest, hu, .inr a, b, rfl⟩))
    · exact .inl rfl

/-- A scan of a STRANDED lease does nothing. -/
theorem grantScan_stranded {l : LeaseId} {s : State} (e : (s.entry l).state = .stranded) : grantScan l s = (s, 0) := by
  rcases grantScan_cases l s with r | ⟨_, _, q, _⟩ | ⟨_, _, _, q, _⟩ | ⟨_, _, _, q, _⟩
  · exact r
  · rw [e] at q; cases q
  · rw [e] at q; cases q
  · rw [e] at q; rcases q with q | q <;> cases q

/-- A scan of an EXCLUSIVE lease does nothing. -/
theorem grantScan_exclusive {l : LeaseId} {s : State} (e : (s.entry l).state = .exclusive) :
    grantScan l s = (s, 0) := by
  rcases grantScan_cases l s with r | ⟨_, _, q, _⟩ | ⟨_, _, _, q, _⟩ | ⟨_, _, _, q, _⟩
  · exact r
  · rw [e] at q; cases q
  · rw [e] at q; cases q
  · rw [e] at q; rcases q with q | q <;> cases q

end Sys2Proof.Machine
end

