-- ==== Sys2Proof/Laws/Memory.lean ====
section
/-! SUPPORT. The laws of the payload memory: every operation keeps the canonical form, a read after a write to the same
place gives the byte written, and a write leaves every other place alone. -/

namespace Sys2Proof.Machine

open Sys2Proof

theorem Memory.wfFrom_mono {lo lo' : Nat} (le : lo' ≤ lo) {m : List Host.Cell} (w : Memory.wfFrom lo m = true) :
    Memory.wfFrom lo' m = true := by
  cases m with
  | nil => rfl
  | cons c rest =>
    simp only [Memory.wfFrom, Bool.and_eq_true, decide_eq_true_eq] at w ⊢
    exact ⟨⟨by omega, w.1.2⟩, w.2⟩

theorem Memory.write_wfFrom {m : List Host.Cell} {lo a : Nat} (y : Byte) (le : lo ≤ a)
    (w : Memory.wfFrom lo m = true) : Memory.wfFrom lo (Memory.write m a y) = true := by
  induction m generalizing lo with
  | nil =>
    by_cases e : y = Config.unwrittenByte
    · simp [Memory.write, e, Memory.wfFrom]
    · simp [Memory.write, e, Memory.wfFrom, le]
  | cons c rest ih =>
    obtain ⟨b, x⟩ := c
    simp only [Memory.wfFrom, Bool.and_eq_true, decide_eq_true_eq] at w
    obtain ⟨⟨lob, hx⟩, wr⟩ := w
    simp only [Memory.write]
    split
    · split
      · simp [Memory.wfFrom, lob, hx, wr]
      · next lt ne => simp [Memory.wfFrom, le, hx, wr, ne, Nat.succ_le_of_lt lt]
    · split
      · next nlt eq =>
        subst eq
        split
        · exact Memory.wfFrom_mono (by omega) wr
        · next ne => simp [Memory.wfFrom, le, wr, ne]
      · next nlt ne =>
        have := ih (lo := b + 1) (by omega) wr
        simp [Memory.wfFrom, lob, hx, this]

/-- A write keeps the canonical form. -/
theorem Memory.write_wf {m : List Host.Cell} (a : Nat) (y : Byte) (w : Memory.wf m = true) :
    Memory.wf (Memory.write m a y) = true :=
  Memory.write_wfFrom y (Nat.zero_le a) w

/-- Bytes written keep the canonical form. -/
theorem Memory.writeBytes_wf {m : List Host.Cell} (a : Nat) (ys : List Byte) (w : Memory.wf m = true) :
    Memory.wf (Memory.writeBytes m a ys) = true := by
  induction ys generalizing m a with
  | nil => exact w
  | cons y ys ih => exact ih (a + 1) (Memory.write_wf a y w)

/-- The empty memory is canonical. -/
theorem Memory.nil_wf : Memory.wf [] = true := rfl

theorem Memory.read_below {m : List Host.Cell} {lo a : Nat} (w : Memory.wfFrom lo m = true) (lt : a < lo) :
    Memory.read m a = Config.unwrittenByte := by
  induction m generalizing lo with
  | nil => rfl
  | cons c rest ih =>
    obtain ⟨b, x⟩ := c
    simp only [Memory.wfFrom, Bool.and_eq_true, decide_eq_true_eq] at w
    have ne : a ≠ b := by omega
    simp only [Memory.read, ne, if_false]
    exact ih w.2 (by omega)

/-- A read after a write to the same place gives the byte written. -/
theorem Memory.read_write_same {m : List Host.Cell} {lo : Nat} (a : Nat) (y : Byte) (w : Memory.wfFrom lo m = true) :
    Memory.read (Memory.write m a y) a = y := by
  induction m generalizing lo with
  | nil =>
    by_cases e : y = Config.unwrittenByte
    · simp [Memory.write, e, Memory.read]
    · simp [Memory.write, e, Memory.read]
  | cons c rest ih =>
    obtain ⟨b, x⟩ := c
    simp only [Memory.wfFrom, Bool.and_eq_true, decide_eq_true_eq] at w
    simp only [Memory.write]
    split
    · next lt =>
      split
      · next e => simp [Memory.read, show a ≠ b by omega, e, Memory.read_below w.2 (show a < b + 1 by omega)]
      · simp [Memory.read]
    · split
      · next e =>
        subst e
        split
        · next e => rw [e]; exact Memory.read_below w.2 (by omega)
        · simp [Memory.read]
      · next ne => simp [Memory.read, ne, ih w.2]

/-- A write leaves every other place alone. -/
theorem Memory.read_write_ne {m : List Host.Cell} {lo a b : Nat} (y : Byte) (w : Memory.wfFrom lo m = true)
    (ne : b ≠ a) : Memory.read (Memory.write m a y) b = Memory.read m b := by
  induction m generalizing lo with
  | nil =>
    by_cases e : y = Config.unwrittenByte
    · simp [Memory.write, e]
    · simp [Memory.write, e, Memory.read, ne]
  | cons c rest ih =>
    obtain ⟨k, x⟩ := c
    simp only [Memory.wfFrom, Bool.and_eq_true, decide_eq_true_eq] at w
    simp only [Memory.write]
    split
    · split
      · rfl
      · simp [Memory.read, ne]
    · split
      · next e =>
        subst e
        split
        · simp [Memory.read, ne]
        · simp [Memory.read, ne]
      · simp only [Memory.read, ih w.2]

/-- Bytes written leave every place outside them alone. -/
theorem Memory.read_writeBytes_outside {m : List Host.Cell} {a b : Nat} (ys : List Byte) (w : Memory.wf m = true)
    (out : b < a ∨ a + ys.length ≤ b) : Memory.read (Memory.writeBytes m a ys) b = Memory.read m b := by
  induction ys generalizing m a with
  | nil => rfl
  | cons y ys ih =>
    simp only [List.length_cons] at out
    rw [Memory.writeBytes, ih (Memory.write_wf a y w) (by omega)]
    exact Memory.read_write_ne y w (by omega)

/-- Bytes written are read back. -/
theorem Memory.read_writeBytes_inside {m : List Host.Cell} {a : Nat} (ys : List Byte) (w : Memory.wf m = true) (i : Nat)
    (lt : i < ys.length) : Memory.read (Memory.writeBytes m a ys) (a + i) = ys[i] := by
  induction ys generalizing m a i with
  | nil => simp at lt
  | cons y ys ih =>
    cases i with
    | zero =>
      rw [Memory.writeBytes, Memory.read_writeBytes_outside ys (Memory.write_wf a y w) (by omega)]
      exact Memory.read_write_same a y w
    | succ i =>
      have := ih (m := Memory.write m a y) (a := a + 1) (Memory.write_wf a y w) i (by simpa using lt)
      simpa [Memory.writeBytes, Nat.add_assoc, Nat.add_comm 1 i] using this

/-- What a write lists, and nothing else, is what was listed or the address written. -/
theorem Memory.write_mem {m : List Host.Cell} {a : Nat} {y : Byte} {c : Host.Cell} (h : c ∈ Memory.write m a y) :
    c ∈ m ∨ c.1 = a := by
  induction m with
  | nil =>
    simp only [Memory.write] at h
    split at h
    · cases h
    · simp_all
  | cons d rest ih =>
    obtain ⟨b, x⟩ := d
    simp only [Memory.write] at h
    split at h
    · split at h
      · exact .inl h
      · simp only [List.mem_cons] at h ⊢; rcases h with rfl | h
        · exact .inr rfl
        · exact .inl h
    · split at h
      · split at h
        · exact .inl (List.mem_cons_of_mem _ h)
        · simp only [List.mem_cons] at h ⊢; rcases h with rfl | h
          · exact .inr rfl
          · exact .inl (.inr h)
      · simp only [List.mem_cons] at h ⊢; rcases h with rfl | h
        · exact .inl (.inl rfl)
        · rcases ih h with h | h
          · exact .inl (.inr h)
          · exact .inr h

end Sys2Proof.Machine
end

