-- ==== Sys2Proof/Laws/Store.lean ====
section
/-! SUPPORT. What the store's reads can do, said once, and the payload under its operations. -/

namespace Sys2Proof.Machine

open Sys2Proof

/-- A read of a cell map entry finds it sound, corrects it and counts that, or retires it, counts that and offers
FAULT. -/
theorem readMapEntry_cases (s : State) (c : CellId) :
    ((s.store.map.get c).chk = .sound ∧ readMapEntry s c = s)
      ∨ ((s.store.map.get c).chk = .correctable ∧ readMapEntry s c = (s.putMap c (s.mapEntry c)).raiseCorrected)
      ∨ ((s.store.map.get c).chk = .uncorrectable
          ∧ readMapEntry s c = (s.putMap c .retired).storeFinding .cellMap c.val) := by
  unfold readMapEntry
  split <;> simp_all

/-- A read of a descriptor finds it sound, corrects it and counts that, or loses it. -/
theorem readDescCore_cases (d : DescId) (s : State) :
    ((s.store.descs.get d).chk = .sound ∧ readDescCore d s = (false, s))
      ∨ ((s.store.descs.get d).chk = .correctable
          ∧ readDescCore d s = (false, (s.putDesc d (s.desc d)).raiseCorrected))
      ∨ ((s.store.descs.get d).chk = .uncorrectable ∧ readDescCore d s = (true, loseDescCore d s)) := by
  unfold readDescCore
  split <;> simp_all

/-- A read of a cell map whose entries are all sound changes nothing. -/
theorem readMap_sound {s : State} (e : ∀ c, (s.store.map.get c).chk = .sound) : readMap s = s := by
  unfold readMap
  suffices ∀ cs : List CellId, cs.foldl readMapEntry s = s from this _
  intro cs
  induction cs with
  | nil => rfl
  | cons c cs ih =>
    have r : readMapEntry s c = s := by simp [readMapEntry, e c]
    rw [List.foldl_cons, r, ih]

/-- A read of the map for one descriptor does nothing or reads the whole map. -/
theorem readMapFor_cases (d : DescId) (s : State) :
    ((s.desc d).cellCount = 0 ∧ readMapFor d s = s) ∨ ((s.desc d).cellCount ≠ 0 ∧ readMapFor d s = readMap s) := by
  unfold readMapFor
  split <;> simp_all

/-- A read of a sound map for one descriptor changes nothing. -/
theorem readMapFor_sound {s : State} (d : DescId) (e : ∀ c, (s.store.map.get c).chk = .sound) :
    readMapFor d s = s := by
  rcases readMapFor_cases d s with ⟨-, r⟩ | ⟨-, r⟩
  · exact r
  · rw [r, readMap_sound e]

/-- A read of descriptors that are all sound changes nothing. -/
theorem readDescs_sound {s : State} (e : ∀ d, (s.store.descs.get d).chk = .sound) : readDescs s = (false, s) := by
  unfold readDescs
  suffices ∀ ds : List DescId,
      ds.foldl (fun x d => ((readDescCore d x.2).1 || x.1, (readDescCore d x.2).2)) (false, s) = (false, s) from this _
  intro ds
  induction ds with
  | nil => rfl
  | cons d ds ih =>
    have r : readDescCore d s = (false, s) := by simp [readDescCore, e d]
    rw [List.foldl_cons]
    simp only [r, Bool.or_false]
    exact ih

/-- A count over sound objects changes nothing. -/
theorem readForCount_sound {s : State} (m : ∀ c, (s.store.map.get c).chk = .sound)
    (d : ∀ d, (s.store.descs.get d).chk = .sound) : readForCount s = s := by
  simp [readForCount, readDescs_sound d, readMap_sound m]

/-- A space scan with an empty list does nothing (R85). -/
theorem spaceScan_nil {s : State} (e : s.store.spaceList = []) : spaceScan s = (s, 0) := by
  have d : dropOverQuota s = s := by
    unfold dropOverQuota
    rw [e]
    rfl
  unfold spaceScan
  simp only [d, e, if_true]

/-- The payload is written by a payload write alone: the store's other operations leave it as it is. -/
theorem freeOwned_payload (d : DescId) (lo : Nat) (s : State) : (freeOwned d lo s).store.payload = s.store.payload := by
  unfold freeOwned
  generalize allCells = cs
  induction cs generalizing s with
  | nil => rfl
  | cons c cs ih =>
    rw [List.foldl_cons, ih]
    split <;> rfl

/-- A payload write keeps the canonical form of the payload. -/
theorem writeCell_wf (c : CellId) (o : Nat) (bs : List Byte) {s : State} (w : Memory.wf s.store.payload = true) :
    Memory.wf (writeCell c o bs s).store.payload = true :=
  Memory.writeBytes_wf _ _ w

end Sys2Proof.Machine
end

