-- ==== Sys2Proof/Laws/Take.lean ====
section
/-! SUPPORT. What a block takes when it takes a command: one lemma for each path, which says all of it. -/

namespace Sys2Proof.Machine

open Sys2Proof

/-- The directory takes a command: the head of its path, from a host it counts JOINED; only the path changes. -/
theorem takeDirCommand_some {s t : State} {h : HostId} {k : CommandKind} {args : List Word} {id : Nat}
    (e : s.takeDirCommand h k args = some (id, t)) :
    ∃ c rest, s.dir.path = .command c :: rest ∧ c.isFor h k args = true ∧ (s.dir.joined.get h).isSome = true
      ∧ id = c.id ∧ t = s.setDirPath rest := by
  unfold State.takeDirCommand at e
  split at e
  · next c rest p =>
    split at e
    · next g =>
      simp only [Option.some.injEq, Prod.mk.injEq] at e
      exact ⟨c, rest, p, g.1, g.2, e.1.symm, e.2.symm⟩
    · cases e
  · cases e

/-- The store takes a command: the next item from the presence unit; only the path changes. -/
theorem takeStoreCommand_some {s t : State} {h : HostId} {k : CommandKind} {args : List Word} {id : Nat}
    (e : s.takeStoreCommand h k args = some (id, t)) :
    ∃ c rest, takeStoreItem s.store.path = some (.command c, rest) ∧ c.isFor h k args = true ∧ id = c.id
      ∧ t = s.setStorePath rest := by
  unfold State.takeStoreCommand at e
  split at e
  · next c rest p =>
    split at e
    · next g =>
      simp only [Option.some.injEq, Prod.mk.injEq] at e
      exact ⟨c, rest, p, g, e.1.symm, e.2.symm⟩
    · cases e
  · cases e

/-- The store takes a COMMIT or an ACCEPT: as any command, from a host that the directory counts JOINED in the store's
session (log 28). -/
theorem takeTransferCommand_some {s t : State} {h : HostId} {k : CommandKind} {id : Nat}
    (e : s.takeTransferCommand h k = some (id, t)) :
    (s.dir.joined.get h).isSome = true ∧ s.dir.joined.get h = s.store.joined.get h
      ∧ s.takeStoreCommand h k [] = some (id, t) := by
  unfold State.takeTransferCommand at e
  split at e
  · next g => exact ⟨g.1, g.2, e⟩
  · cases e

/-- The notice unit takes a command: the head of its path; only the path changes. -/
theorem takeNoticeCommand_some {s t : State} {h : HostId} {k : CommandKind} {args : List Word} {id : Nat}
    (e : s.takeNoticeCommand h k args = some (id, t)) :
    ∃ c rest, s.notice.path = .command c :: rest ∧ c.isFor h k args = true ∧ id = c.id ∧ t = s.setNoticePath rest := by
  unfold State.takeNoticeCommand at e
  split at e
  · next c rest p =>
    split at e
    · next g =>
      simp only [Option.some.injEq, Prod.mk.injEq] at e
      exact ⟨c, rest, p, g, e.1.symm, e.2.symm⟩
    · cases e
  · cases e

/-- The settings block takes a command: the head of its path; only the path changes. -/
theorem takeSettingsCommand_some {s t : State} {h : HostId} {k : CommandKind} {args : List Word} {id : Nat}
    (e : s.takeSettingsCommand h k args = some (id, t)) :
    ∃ c rest, s.settings.path = .command c :: rest ∧ c.isFor h k args = true ∧ id = c.id
      ∧ t = s.setSettingsPath rest := by
  unfold State.takeSettingsCommand at e
  split at e
  · next c rest p =>
    split at e
    · next g =>
      simp only [Option.some.injEq, Prod.mk.injEq] at e
      exact ⟨c, rest, p, g, e.1.symm, e.2.symm⟩
    · cases e
  · cases e

/-- The presence unit takes a command off a port: the one written there; the port is not OFFLINE, and a JOINED host's
term is reloaded (R5). -/
theorem takeFromPort_some {s t : State} {h : HostId} {want : Command → Bool} {c : Command}
    (e : s.takeFromPort h want = some (c, t)) :
    (s.port h).unadmitted = some c ∧ want c = true ∧ (s.record h).state ≠ .offline
      ∧ t = (s.takeWritten h).reloadTerm h := by
  unfold State.takeFromPort at e
  split at e
  · next c' p =>
    split at e
    · next g =>
      simp only [Option.some.injEq, Prod.mk.injEq] at e
      exact ⟨by rw [p, e.1], e.1 ▸ g.1, g.2, e.2.symm⟩
    · cases e
  · cases e

/-- The presence unit takes a command of its own: off the port, with the PAY words behind it passed on, when no EVICT of
the host waits for its charter check. -/
theorem takePresenceCommand_some {s t : State} {h : HostId} {k : CommandKind} {args : List Word} {id : Nat}
    (e : s.takePresenceCommand h k args = some (id, t)) :
    s.presence.evicting.get h = none ∧ ∃ c, (s.port h).unadmitted = some c ∧ c.isFor h k args = true
      ∧ (s.record h).state ≠ .offline ∧ id = c.id ∧ t = ((s.takeWritten h).reloadTerm h).passParked h := by
  unfold State.takePresenceCommand at e
  split at e
  · cases e
  · next w =>
    refine ⟨by simpa using w, ?_⟩
    split at e
    · next c u p =>
      simp only [Option.some.injEq, Prod.mk.injEq] at e
      obtain ⟨a, b, d, rfl⟩ := takeFromPort_some p
      exact ⟨c, a, b, d, e.1.symm, e.2.symm⟩
    · cases e

/-- The presence unit goes on with an admitted EVICT: only that one is taken out of the state. -/
theorem takeAdmittedEvict_some {s t : State} {h : HostId} {target : Word} {id : Nat}
    (e : s.takeAdmittedEvict h target = some (id, t)) :
    ∃ c, s.presence.evicting.get h = some c ∧ c.isFor h .evict [target] = true ∧ id = c.id
      ∧ t = s.setEvicting h none := by
  unfold State.takeAdmittedEvict at e
  split at e
  · next c p =>
    split at e
    · next g =>
      simp only [Option.some.injEq, Prod.mk.injEq] at e
      exact ⟨c, p, g, e.1.symm, e.2.symm⟩
    · cases e
  · cases e

end Sys2Proof.Machine
end

