-- ==== Sys2Proof/WellFormed.lean ====
section
/-! DEFINITION. What a well-formed command is: the few operands that are not free. -/

namespace Sys2Proof

/-- The locations whose writes are ignored (R166). -/
def Loc.ignoresWrites : Loc → Bool
  | .pstat | .rpl | .pcount | .ident => true
  | .cmd | .arg | .pay | .amask => false

/-- A command is well formed when its operands name a step of its row: an unknown command code is outside the command
table (R173), an ignored write names one of the four locations that ignore writes (R166), and a word cut short has fewer
than 16 bits (R179). Every other operand is free. -/
def Instr.wellFormed : Instr → Bool
  | .unknownCommandCode _ code => (decodeCommand code).isNone
  | .windowWriteIgnored _ loc _ => loc.ignoresWrites
  | .serialTransactionEnd _ cutBits => cutBits.length < 16
  | _ => true

end Sys2Proof
end

