-- ==== Sys2Proof/Tests/Slice0.lean ====
section
/-! SUPPORT. Tests: the checks of WellFormed, the codes and headers of R173 and R179 written out, single steps with the
results that the spec's rules and figures give, and for every statement with hypotheses a concrete state that meets them,
clause by clause. -/

namespace Sys2Proof.Machine.Tests

open Sys2Proof Sys2Proof.Machine

set_option Elab.async false

/-! ## States -/

/-- Hosts 0, 1 and 2 JOINED in session 1 as every block counts them; host 3 UNJOINED. -/
def live : State :=
  let three : PerHost (Option Nat) := Vector.ofFn fun h => if h.val < 3 then some 1 else none
  { State.reset with
    resetn := false
    presence := { State.reset.presence with
      records := Vector.ofFn fun h => if h.val < 3 then ⟨.joined, 1, some 2000, none⟩ else ⟨.unjoined, 0, none, none⟩ }
    dir := { Directory.reset with joined := three }
    store := { Store.reset with joined := three }
    notice := { NoticeUnit.reset with joined := three } }

/-- A shared lease. -/
def shared (hs : HostSet) : LeaseEntry := { LeaseEntry.reset with state := .shared, holders := hs, generation := 3 }

/-- An exclusive lease. -/
def owned (h : HostId) : LeaseEntry := { LeaseEntry.reset with state := .exclusive, owner := some h, generation := 3 }

/-- A lease stranded by its owner's departure. -/
def stranded (h : HostId) : LeaseEntry :=
  { LeaseEntry.reset with state := .stranded, owner := some h, cause := some .departed, generation := 3 }

/-- A lease of host h in transit in a descriptor. -/
def carried (h : HostId) (d : DescId) (dest : HostId) (present : Bool) : LeaseEntry :=
  { owned h with transit := some ⟨d, dest⟩, ownerPresent := present }

/-- A message of host 1 to a host, of a length and with a number of bytes written. -/
def letter (dest : HostId) (length written : Nat) : Message := ⟨dest, .normal, 0x77, length, written, none, none⟩

/-- What the next read of an entry finds, set. -/
def flawed (l : LeaseId) (k : Check) (s : State) : State :=
  { s with dir := { s.dir with entries := upd s.dir.entries l ⟨s.entry l, k⟩ } }

/-- What the next read of a descriptor finds, set. -/
def flawedDesc (d : DescId) (k : Check) (s : State) : State :=
  { s with store := { s.store with descs := upd s.store.descs d ⟨s.desc d, k⟩ } }

/-- A busy part. Host 0 owns L0, holds a reservation of one cell in D3, and has sent L7 to host 2 in D2, which is QUEUED;
host 1 assembles a message of 20 bytes in D0 and waits for space; host 2 reads D1, has D2 waiting, and waits for L5. -/
def busy : State :=
  let s := (((live.putEntry 0 (owned 0)).putEntry 5 { shared 3#4 with waiters := [(2, .exclusive)] }).putEntry 7
    (carried 0 2 2 true)).setWait 2 (some ⟨5, .claimExclusive, some 9⟩)
  { s with store := { s.store with
    descs := upd (upd (upd (upd s.store.descs 0 ⟨⟨.assembling, 1, 1, 2, false, some (letter 2 20 2)⟩, .sound⟩) 1
      ⟨⟨.opened, 1, 1, 1, false, some (letter 2 3 3)⟩, .sound⟩) 2
      ⟨⟨.queued, 0, 1, 0, false, some ⟨2, .urgent, 0x99, 0, 0, none, some 7⟩⟩, .sound⟩) 3
      ⟨⟨.reserved, 0, 1, 1, false, none⟩, .sound⟩
    map := upd (upd (upd (upd s.store.map 0 ⟨.owned 0 0, .sound⟩) 1 ⟨.owned 0 1, .sound⟩) 2 ⟨.owned 1 0, .sound⟩) 3
      ⟨.owned 3 0, .sound⟩
    payload := [(0, 0x41#8), (1, 0x42#8), (32, 0x61#8), (33, 0x62#8), (34, 0x63#8)]
    inbound := upd s.store.inbound 2 ⟨[2], [1]⟩
    space := upd (upd s.store.space 0 (.reserved 3 9)) 1 (.waiting 2 (some 9))
    spaceList := [1]
    streams := upd (upd s.store.streams 1 ⟨some 0, none, 0⟩) 2 ⟨none, some 1, 0⟩ } }

/-! ## A command first on a path -/

/-- The directory takes the command in this state, and what is asked holds of the state without it. -/
def dirTakes (s : State) (h : HostId) (k : CommandKind) (args : List Word) (p : State → Bool) : Bool :=
  ((s.setDirPath [.command ⟨h, 7, k.code, args⟩]).takeDirCommand h k args).any fun x => p x.2

/-- The store takes the command in this state, and what is asked holds of the state without it. -/
def storeTakes (s : State) (h : HostId) (k : CommandKind) (args : List Word) (p : State → Bool) : Bool :=
  ((s.setStorePath [.path (.command ⟨h, 7, k.code, args⟩)]).takeStoreCommand h k args).any fun x => p x.2

/-- The store takes the COMMIT or ACCEPT in this state, and what is asked holds of the state without it. -/
def transferTakes (s : State) (h : HostId) (k : CommandKind) (p : State → Bool) : Bool :=
  ((s.setStorePath [.path (.command ⟨h, 7, k.code, []⟩)]).takeTransferCommand h k).any fun x => p x.2

/-- The notice unit takes the command in this state, and what is asked holds of the state without it. -/
def noticeTakes (s : State) (h : HostId) (k : CommandKind) (args : List Word) (p : State → Bool) : Bool :=
  ((s.setNoticePath [.command ⟨h, 7, k.code, args⟩]).takeNoticeCommand h k args).any fun x => p x.2

/-- The settings block takes the command in this state, and what is asked holds of the state without it. -/
def settingsTakes (s : State) (h : HostId) (k : CommandKind) (args : List Word) (p : State → Bool) : Bool :=
  ((s.setSettingsPath [.command ⟨h, 7, k.code, args⟩]).takeSettingsCommand h k args).any fun x => p x.2

/-- The state with a command written at port h. -/
def written (s : State) (h : HostId) (code : Word) (args : List Word) : State :=
  s.setPort h { s.port h with inFlight := some 7, nextId := 8, unadmitted := some ⟨h, 7, code, args⟩ }

/-- The presence unit takes the command in this state, and what is asked holds of the state without it. -/
def portTakes (s : State) (h : HostId) (k : CommandKind) (args : List Word) (p : State → Bool) : Bool :=
  ((written s h k.code args).takePresenceCommand h k args).any fun x => p x.2

/-- The presence unit goes on with the EVICT of host 0 that it admitted, and what is asked holds of the state without
it. -/
def evictGoesOn (s : State) (target : Word) (p : State → Bool) : Bool :=
  ((s.setEvicting 0 (some ⟨0, 7, CommandKind.evict.code, [target]⟩)).takeAdmittedEvict 0 target).any fun x => p x.2

/-- The entry reads sound. -/
def sound (s : State) (l : LeaseId) : Bool := decide ((s.dir.entries.get l).chk = .sound)

/-- Every descriptor and cell map entry reads sound. -/
def soundStore (s : State) : Bool :=
  (s.store.descs.toList.all fun x => x.chk = .sound) && s.store.map.toList.all fun x => x.chk = .sound

theorem storeSound_of {s : State} (h : soundStore s = true) : StoreSound s := by
  simp only [soundStore, Bool.and_eq_true, List.all_eq_true, decide_eq_true_eq] at h
  exact ⟨fun d => h.1 _ (by simp [Vector.get]), fun c => h.2 _ (by simp [Vector.get])⟩

/-- The host has a presence state. -/
def inState (s : State) (h : HostId) (st : PresenceState) : Bool := decide ((s.record h).state = st)

/-- The state with a host's presence state replaced. -/
def become (s : State) (h : HostId) (st : PresenceState) : State := s.setRecord h { s.record h with state := st }

/-- The words of the last reply on its way to port h. -/
def answered (o : Host.Outcome State Fault Refusal) (h : HostId) : Option (List Word) :=
  match o with
  | .next t => (t.port h).replies.getLast?.map Reply.words
  | .fault _ | .refused _ => none

/-- A property of the next state. -/
def after (o : Host.Outcome State Fault Refusal) (p : State → Bool) : Bool :=
  match o with
  | .next t => p t
  | .fault _ | .refused _ => false

/-! ## Soundness of a concrete state, checked -/

/-- The cell map agrees with the descriptors. -/
def cellsFit (s : State) : Bool :=
  allCells.all fun c => match s.mapEntry c with
    | .owned d p => decide ((s.desc d).state ≠ .free ∧ p < (s.desc d).cellCount)
        && allCells.all fun c' => decide (s.mapEntry c' = .owned d p → c = c')
    | .free | .retired => true

theorem cellsOk_of {s : State} (h : cellsFit s = true) : CellsOk s := by
  simp only [cellsFit, allCells, List.all_eq_true, List.mem_finRange, true_imp_iff] at h
  refine ⟨fun c d p e => ?_, fun c c' d p e e' => ?_⟩
  · have := h c
    rw [e] at this
    simp only [Bool.and_eq_true, decide_eq_true_eq] at this
    exact this.1
  · have := h c
    rw [e] at this
    simp only [Bool.and_eq_true, List.all_eq_true, List.mem_finRange, true_imp_iff, decide_eq_true_eq] at this
    exact this.2 c' e'

/-- The space record waits. -/
def waits : SpaceRecord → Bool
  | .waiting .. => true
  | .empty | .reserved .. => false

/-- The space record names the descriptor. -/
def reserves (d : DescId) : SpaceRecord → Bool
  | .reserved d' _ => decide (d' = d)
  | .empty | .waiting .. => false

theorem waits_iff (r : SpaceRecord) : waits r = true ↔ ∃ n t, r = .waiting n t := by cases r <;> simp [waits]

theorem reserves_iff (d : DescId) (r : SpaceRecord) : reserves d r = true ↔ ∃ k, r = .reserved d k := by
  cases r <;> simp [reserves, eq_comm]

/-- The space records, the list, the streams and the queues fit the descriptors. -/
abbrev LinksFit (s : State) : Prop :=
  s.store.spaceList.Nodup
    ∧ (∀ h : HostId, (s.queue h).Nodup ∧ (h ∈ s.store.spaceList ↔ waits (s.space h) = true))
    ∧ (∀ d : DescId, (s.desc d).state = .assembling → (s.desc d).msg.isSome = true)
    ∧ ∀ (h : HostId) (d : DescId),
      (reserves d (s.space h) = true ↔ (s.desc d).state = .reserved ∧ (s.desc d).source = h)
      ∧ ((s.stream h).assembling = some d ↔ (s.desc d).state = .assembling ∧ (s.desc d).source = h)
      ∧ ((s.stream h).openDesc = some d ↔ (s.desc d).state = .opened ∧ d ∈ s.queue h)
      ∧ (d ∈ s.queue h ↔
        ((s.desc d).state = .queued ∨ (s.desc d).state = .opened) ∧ (s.desc d).msg.map Message.dest = some h)

theorem linksOk_of {s : State} (q : LinksFit s) : LinksOk s := by
  obtain ⟨list, hosts, composed, pairs⟩ := q
  exact ⟨list, fun h => (hosts h).2.trans (waits_iff _), fun h d => (reserves_iff d _).symm.trans (pairs h d).1,
    fun h d => (pairs h d).2.1, composed, fun h d => (pairs h d).2.2.1, fun h => (hosts h).1,
    fun h d => (pairs h d).2.2.2⟩

/-- Every message keeps its length, its cells and its positions. -/
def positionsFit (s : State) : Bool :=
  (allDescs.all fun d => match (s.desc d).msg with
    | none => true
    | some m => decide (m.length ≤ 240 ∧ (s.desc d).cellCount = (m.length + 15) / 16 ∧ m.written ≤ m.length
        ∧ (m.written % 2 = 0 ∨ m.written = m.length)))
  && allHosts.all fun h => match (s.stream h).openDesc with
    | none => true
    | some d => match (s.desc d).msg with
      | none => true
      | some m => decide ((s.stream h).readPos ≤ m.length
          ∧ ((s.stream h).readPos % 2 = 0 ∨ (s.stream h).readPos = m.length))

theorem positionsOk_of {s : State} (h : positionsFit s = true) : PositionsOk s := by
  simp only [positionsFit, allDescs, allHosts, Bool.and_eq_true, List.all_eq_true, List.mem_finRange,
    true_imp_iff] at h
  refine ⟨fun d m e => ?_, fun g d m e e' => ?_⟩
  · have := h.1 d
    rw [e] at this
    exact of_decide_eq_true this
  · have := h.2 g
    rw [e] at this
    simp only [e'] at this
    exact of_decide_eq_true this

/-- An entry's fields agree with its state. -/
def entryFits (e : LeaseEntry) : Bool :=
  decide (e.waiters.map Prod.fst).Nodup && decide (e.ownerPresent = true → e.transit.isSome = true)
    && match e.state with
      | .free => decide (e.owner = none ∧ e.holders = 0#4 ∧ e.waiters = [] ∧ e.upgrade = none ∧ e.transit = none
          ∧ e.cause = none)
      | .shared => decide (e.owner = none ∧ e.holders ≠ 0#4 ∧ e.transit = none ∧ e.cause = none
          ∧ (∀ h ∈ e.waiters.map Prod.fst, HostSet.has e.holders h = false)
          ∧ ∀ h : HostId, e.upgrade = some h → HostSet.has e.holders h = true ∧ e.holders ≠ HostSet.single h)
      | .exclusive => decide (e.owner.isSome = true ∧ e.holders = 0#4 ∧ e.upgrade = none ∧ e.cause = none
          ∧ ∀ h ∈ e.waiters.map Prod.fst, e.owner ≠ some h)
      | .stranded => decide (e.holders = 0#4 ∧ e.upgrade = none ∧ e.transit = none ∧ e.cause.isSome = true
          ∧ (e.owner = none ↔ e.cause = some .integrity))

theorem entryOk_of {e : LeaseEntry} (h : entryFits e = true) : e.Ok := by
  unfold entryFits at h
  simp only [Bool.and_eq_true, decide_eq_true_eq] at h
  refine ⟨h.1.1, h.1.2, ?_⟩
  have q := h.2
  cases st : e.state <;> rw [st] at q <;> simp only [decide_eq_true_eq] at q ⊢ <;> exact q

theorem waitsMatch_of {s : State}
    (a : ∀ l : LeaseId, ∀ w ∈ (s.entry l).waiters,
      (s.wait w.1).map (fun r => (r.lease, r.kind)) = some (l, w.2.waitKind))
    (b : ∀ (l : LeaseId) (h : HostId), (s.entry l).upgrade = some h →
      (s.wait h).map (fun r => (r.lease, r.kind)) = some (l, .upgrade))
    (c : ∀ h : HostId, ∀ r ∈ s.wait h, (r.kind = .claimShared ∧ (h, .shared) ∈ (s.entry r.lease).waiters)
      ∨ (r.kind = .claimExclusive ∧ (h, .exclusive) ∈ (s.entry r.lease).waiters)
      ∨ (r.kind = .upgrade ∧ (s.entry r.lease).upgrade = some h)) : WaitsMatch s :=
  ⟨fun l h m e => a l (h, m) e, b, fun h r e => c h r e⟩

/-- Every role of the entry is a JOINED host's. -/
def rolesFit (s : State) : Bool :=
  allLeases.all fun l => allHosts.all fun h =>
    (!(HostSet.has (s.entry l).holders h || (s.entry l).acts h || decide (h ∈ (s.entry l).waiters.map Prod.fst)))
      || (s.dir.joined.get h).isSome

theorem rolesJoined_of {s : State} (q : rolesFit s = true) : RolesJoined s := by
  simp only [rolesFit, allLeases, allHosts, List.all_eq_true, List.mem_finRange, true_imp_iff] at q
  intro l h r
  left
  have := q l h
  have z : (HostSet.has (s.entry l).holders h || (s.entry l).acts h
      || decide (h ∈ (s.entry l).waiters.map Prod.fst)) = true := by
    rcases r with r | r | r
    · simp [r]
    · simp [r]
    · simp only [LeaseEntry.hasWaiter] at r
      simp [r]
  rw [z] at this
  simpa using this

theorem busy_cellsOk : CellsOk busy := cellsOk_of (by decide +kernel)

theorem busy_linksOk : LinksOk busy :=
  linksOk_of (by decide +kernel)

theorem busy_storeOk : StoreOk busy := ⟨busy_cellsOk, busy_linksOk, positionsOk_of (by decide +kernel)⟩

theorem busy_directoryOk : DirectoryOk busy :=
  ⟨fun l => entryOk_of ((by decide +kernel : ∀ l : LeaseId, entryFits (busy.entry l) = true) l),
    waitsMatch_of (by decide +kernel) (by decide +kernel) (by decide +kernel), rolesJoined_of (by decide +kernel)⟩

theorem busy_transitOk : TransitOk busy := by
  have q : ∀ l : LeaseId, ∀ t ∈ (busy.entry l).transit,
      ((busy.desc t.desc).state = .queued ∨ (busy.desc t.desc).state = .opened)
        ∧ (busy.desc t.desc).msg.map (fun m => (m.carried, m.dest)) = some (some l, t.recipient) := by decide +kernel
  exact fun l t e => q l t e

theorem inRange_of {x : Setting} {v : Nat} (h : (decide (x.low ≤ v) && decide (v ≤ x.high)) = true) : x.inRange v := by
  simpa [Setting.inRange] using h

theorem busy_bounds : PayloadOk busy ∧ RingsOk busy ∧ SettingsOk busy ∧ PortsOk busy ∧ PresenceOk busy := by
  refine ⟨⟨by decide +kernel, by decide +kernel⟩, ?_, ?_, ?_, ?_⟩
  · intro h
    exact (by decide +kernel : ∀ h : HostId, (busy.ring h).length ≤ 8 ∧ busy.lost h ≤ 255) h
  · exact ⟨fun x => inRange_of (by cases x <;> rfl), inRange_of rfl, inRange_of rfl, inRange_of rfl,
      List.forall_mem_nil _, Nat.zero_le _, Nat.zero_le _, inRange_of rfl, by decide +kernel⟩
  · intro h
    exact (by decide +kernel : ∀ h : HostId, (busy.port h).args.length ≤ 8 ∧ (busy.port h).replyPos ≤ 8
      ∧ ¬ ((busy.port h).busy = true ∧ (busy.port h).replyReady = true)) h
  · intro h
    exact (by decide +kernel : ∀ h : HostId, ((busy.record h).session ≤ 255
      ∧ ((busy.record h).state = .joined → 0 < (busy.record h).session)
      ∧ ((busy.record h).term.isSome = true ↔ (busy.record h).state = .joined)
      ∧ ((busy.record h).fence.isSome = true ↔ (busy.record h).state = .fenced))
      ∧ ((busy.record h).state = .offline ↔ (busy.resetn = true ∨ (busy.port h).prstn = true))) h

/-! ## Well-formed commands -/

theorem test_unknown_code_in_the_table_is_ill_formed : (Instr.unknownCommandCode 0 0x10#16).wellFormed = false := by
  decide +kernel

theorem test_unknown_code_outside_the_table_is_well_formed :
    (Instr.unknownCommandCode 0 0x06#16).wellFormed = true ∧ (Instr.unknownCommandCode 0 0x0110#16).wellFormed = true := by
  decide +kernel

theorem test_write_that_is_not_ignored_is_ill_formed :
    ∀ l ∈ [Loc.cmd, .arg, .pay, .amask], (Instr.windowWriteIgnored 0 l 0#16).wellFormed = false := by decide +kernel

theorem test_whole_word_is_no_word_cut_short :
    (Instr.serialTransactionEnd 0 (List.replicate 16 true)).wellFormed = false
      ∧ (Instr.serialTransactionEnd 0 (List.replicate 15 true)).wellFormed = true := by decide +kernel

/-! ## Codes and headers, written out from R173 and R179 -/

theorem test_codes_of_each_family :
    decodeCommand 0b0000000000000001#16 = some .join ∧ decodeCommand 0b0000000000000101#16 = some .evict
      ∧ decodeCommand 0b0000000000010000#16 = some .claim ∧ decodeCommand 0b0000000000010111#16 = some .writeValue
      ∧ decodeCommand 0b0000000000100010#16 = some .beginMessage ∧ decodeCommand 0b0000000000101000#16 = some .unwind
      ∧ decodeCommand 0b0000000000110000#16 = some .nextNotice ∧ decodeCommand 0b0000000001000000#16 = some .setParam
      ∧ decodeCommand 0b0000000001000011#16 = some .clearCounts ∧ decodeCommand 0b0000000000000000#16 = none
      ∧ decodeCommand 0b0000000000011000#16 = none ∧ decodeCommand 0b0000000100000001#16 = none := by decide +kernel

theorem test_headers :
    decodeHeader 0b10000000#8 = some (true, .pstat) ∧ decodeHeader 0b00000001#8 = some (false, .cmd)
      ∧ decodeHeader 0b10000111#8 = some (true, .ident) ∧ decodeHeader 0b00000100#8 = some (false, .pay)
      ∧ decodeHeader 0b00001000#8 = none ∧ decodeHeader 0b11000000#8 = none := by decide +kernel

/-! ## Witnesses: the command path, resets, presence -/

theorem witness_stepRunsFrontCommand :
    ({ live with pending := [.renew 1, .tick .store] } : State).pending = Instr.renew 1 :: [.tick .store]
      ∧ live.pending = [] := by decide +kernel

/-- A word beyond the frame is asked for (R170): the frame holds one word, the command takes two. -/
theorem witness_firstCommandOnPathIsTaken :
    let c : Command := ⟨1, 7, CommandKind.setParam.code, [2#16]⟩
    let e : Command := ⟨1, 8, CommandKind.accept.code, []⟩
    (c.host = 1 ∧ c.code = CommandKind.setParam.code ∧ e.host = 1 ∧ e.code = CommandKind.accept.code
        ∧ ∀ i, i < [2#16, 0#16].length → [2#16, 0#16][i]? = some ((c.args[i]?).getD 0#16))
      ∧ (live.setDirPath [.command c]).dir.path = .command c :: []
      ∧ ((live.setDirPath [.command c]).dir.joined.get 1).isSome = true
      ∧ takeStoreItem (live.setStorePath [.pay 2 0#16, .path (.command e)]).store.path
          = some (.command e, [.pay 2 0#16])
      ∧ (live.dir.joined.get 1).isSome = true ∧ live.dir.joined.get 1 = live.store.joined.get 1
      ∧ (live.setNoticePath [.command c]).notice.path = .command c :: []
      ∧ (live.setSettingsPath [.command c]).settings.path = .command c :: []
      ∧ ((live.setPort 1 { live.port 1 with unadmitted := some c }).port 1).unadmitted = some c
      ∧ live.presence.evicting.get 1 = none
      ∧ (let v : Command := ⟨1, 9, CommandKind.evict.code, [2#16]⟩
        (live.setEvicting 1 (some v)).presence.evicting.get 1 = some v ∧ v.host = 1 ∧ v.arg 0 = 2#16)
      ∧ ((live.setPort 1 { live.port 1 with unadmitted := some c }).record 1).state ≠ .offline := by decide +kernel

theorem witness_deviceResetAndRelease : State.reset.resetn = true := rfl

theorem witness_portReset :
    live.resetn = false ∧ (live.port 1).prstn = false ∧ (live.record 1).state = .joined
      ∧ (live.port 3).prstn = false ∧ (live.record 3).state ≠ .joined
      ∧ ((live.setPort 3 { live.port 3 with prstn := true }).port 3).prstn = true
      ∧ (live.setPort 3 { live.port 3 with prstn := true }).resetn = false := by decide +kernel

/-- A command with this code is written at the port of host 1, which is in this state. -/
def isWritten (st : PresenceState) (code : Word) : Bool :=
  let s := written (become live 1 st) 1 code []
  decide ((s.port 1).unadmitted = some ⟨1, 7, code, []⟩) && inState s 1 st && !inState s 1 .offline

/-- A command of each owning block, an EVICT, a JOIN and an unknown code, in each state. -/
theorem witness_admissionTable :
    ([PresenceState.unjoined, .joined, .fenced].all fun st =>
        [0x10#16, 0x25#16, 0x30#16, 0x40#16, 0x41#16, 0x42#16, 0x05#16, 0x01#16, 0x06#16].all fun code =>
          isWritten st code) = true
      ∧ decodeCommand 0x10#16 = some .claim ∧ decodeCommand 0x25#16 = some .openMessage
      ∧ decodeCommand 0x30#16 = some .nextNotice ∧ decodeCommand 0x40#16 = some .setParam
      ∧ decodeCommand 0x41#16 = some .readParam ∧ decodeCommand 0x42#16 = some .deviceStatus
      ∧ decodeCommand 0x05#16 = some .evict ∧ decodeCommand 0x01#16 = some .join ∧ decodeCommand 0x06#16 = none
      ∧ (written live 1 0x05#16 []).presence.evicting.get 1 = none := by decide +kernel

/-- At the last session number, from which a join goes to 1 (R3), and one below it. -/
theorem witness_joinAdmitsHost :
    portTakes live 1 .join [] (fun _ => inState live 1 .joined)
      ∧ (∀ st ∈ [PresenceState.unjoined, .fenced], ∀ n ∈ [0, 254, 255],
          portTakes (live.setRecord 1 ⟨st, n, none, none⟩) 1 .join [] fun t => inState t 1 st) := by decide +kernel

theorem witness_leaveAndExpiryEndSession :
    (∀ st ∈ [PresenceState.unjoined, .fenced, .joined],
        portTakes (become live 1 st) 1 .leave [] fun _ => inState (become live 1 st) 1 st)
      ∧ ((live.setRecord 1 ⟨.joined, 1, some 0, none⟩).record 1).state = .joined
      ∧ ((live.setRecord 1 ⟨.joined, 1, some 0, none⟩).record 1).term = some 0 := by decide +kernel

/-- Targets at both sides of each limit: the caller, another JOINED host, a host that is not, and 4; from the port, and
admitted before with the caller in any state; L0 sound and in error. -/
theorem witness_evictFencesTarget :
    let charter := live.putEntry 0 (owned 0)
    (∀ st ∈ [PresenceState.unjoined, .fenced],
        portTakes (become live 0 st) 0 .evict [1#16] fun _ => inState (become live 0 st) 0 st)
      ∧ (∀ takes ∈ [fun (s : State) w p => portTakes s 0 .evict [w] p, evictGoesOn,
          fun s w p => evictGoesOn (become s 0 .fenced) w p],
        (takes live 1#16 fun t => inState live 0 .joined && sound t 0 && !(t.entry 0).acts 0)
          ∧ (takes charter 4#16 fun t => sound t 0 && (t.entry 0).acts 0 && decide (4 ≤ (4#16 : Word).toNat))
          ∧ (takes charter 0#16 fun t => sound t 0 && (t.entry 0).acts 0 && decide ((0#16 : Word).toNat = (0 : HostId).val))
          ∧ (takes charter 3#16 fun t => sound t 0 && (t.entry 0).acts 0 && !inState live 3 .joined)
          ∧ (takes charter 2#16 fun t => sound t 0 && (t.entry 0).acts 0 && inState live 2 .joined)
          ∧ ∀ k ∈ [Check.correctable, .uncorrectable],
            takes (flawed 0 k charter) 2#16 fun t => decide ((t.dir.entries.get 0).chk = k)) := by decide +kernel

theorem witness_renewAndStatusReport :
    (∀ st ∈ [PresenceState.unjoined, .fenced, .joined],
        portTakes (become live 1 st) 1 .renew [] fun _ => inState (become live 1 st) 1 st)
      ∧ ∀ st ∈ [PresenceState.unjoined, .fenced, .joined],
        portTakes (become live 1 st) 1 .status [] fun _ => inState (become live 1 st) 1 st := by decide +kernel
/-! ## Witnesses: the lease directory -/

/-- A wait without a deadline while the caller waits elsewhere is not asked for; lease 63 is the last (R27). -/
theorem witness_claimGrantedAtOnce :
    ([1#16, 2#16].all fun mode => [0#16, 65535#16].all fun wait =>
        dirTakes live 1 .claim [63#16, mode, wait] fun t =>
          sound t 63 && !(t.entry 63).sentAway 1 && !(t.entry 63).heldBy 1 && decide (t.wait 1 = none)
            && decide ((t.entry 63).state = .free)) = true
      ∧ dirTakes (live.putEntry 5 (shared 1#4)) 1 .claim [5#16, 1#16, 0#16] fun t =>
        sound t 5 && !(t.entry 5).sentAway 1 && !(t.entry 5).heldBy 1
          && decide ((t.entry 5).state = .shared ∧ (t.entry 5).waiters = [] ∧ (t.entry 5).upgrade = none) := by
  decide +kernel

/-- The directory takes a claim that none of its three checks stops. -/
def claimPasses (s : State) (mode wait : Word) (p : State → Bool) : Bool :=
  dirTakes s 1 .claim [5#16, mode, wait] fun t =>
    sound t 5 && !(t.entry 5).sentAway 1 && !(t.entry 5).heldBy 1 && (decide (wait = 0#16 ∨ t.wait 1 = none)) && p t

theorem witness_claimRefusedOrQueued :
    (dirTakes (live.putEntry 5 (carried 1 2 2 false)) 1 .claim [5#16, 1#16, 0#16] fun t =>
        sound t 5 && (t.entry 5).sentAway 1)
      ∧ (dirTakes (live.putEntry 5 (shared 2#4)) 1 .claim [5#16, 1#16, 0#16] fun t =>
        sound t 5 && !(t.entry 5).sentAway 1 && (t.entry 5).heldBy 1)
      ∧ (dirTakes (live.setWait 1 (some ⟨9, .claimShared, none⟩)) 1 .claim [5#16, 1#16, 1#16] fun t =>
        sound t 5 && !(t.entry 5).sentAway 1 && !(t.entry 5).heldBy 1 && decide (t.wait 1 ≠ none))
      ∧ ([0#16, 1#16, 65534#16, 65535#16].all fun wait =>
        claimPasses (live.putEntry 5 (owned 0)) 1#16 wait (fun t => decide ((t.entry 5).state = .exclusive))
          && claimPasses (live.putEntry 5 (stranded 0)) 1#16 wait (fun t => decide ((t.entry 5).state = .stranded))
          && claimPasses (live.putEntry 5 (shared 1#4)) 2#16 wait (fun t => decide ((t.entry 5).state = .shared))
          && claimPasses (live.putEntry 5 { shared 1#4 with waiters := [(2, .exclusive)] }) 1#16 wait
            fun t => decide ((t.entry 5).state = .shared ∧ (t.entry 5).waiters ≠ [])) = true := by decide +kernel

/-- The first lease argument that names no lease, and a mode argument on each side of the two (R27). -/
theorem witness_leaseArgumentsThenRead :
    (leaseCommands 1 64#16 1#16 0#16).all (fun x => dirTakes live 1 x.1 x.2.1 fun _ => true) = true
      ∧ (leaseCommands 1 5#16 1#16 0#16).all (fun x => dirTakes (flawed 5 .correctable live) 1 x.1 x.2.1 fun t =>
        decide ((t.dir.entries.get 5).chk = .correctable)) = true
      ∧ 64 ≤ (64#16 : Word).toNat ∧ (5#16 : Word).toNat = (5 : LeaseId).val
      ∧ ([0#16, 3#16].all fun mode => dirTakes live 1 .claim [5#16, mode, 0#16] fun _ => true) = true := by
  decide +kernel

theorem witness_damagedEntryIsRebuilt :
    (leaseCommands 1 5#16 1#16 0#16).all (fun x => dirTakes (flawed 5 .uncorrectable live) 1 x.1 x.2.1 fun t =>
        decide ((t.dir.entries.get 5).chk = .uncorrectable)) = true
      ∧ dirTakes (flawed 5 .uncorrectable (live.setWait 1 (some ⟨5, .claimShared, none⟩))) 1 .cancelWait [] fun t =>
        decide (t.wait 1 = some ⟨5, .claimShared, none⟩ ∧ (t.dir.entries.get 5).chk = .uncorrectable) := by decide +kernel

theorem witness_releaseGivesUpHold :
    (dirTakes (live.putEntry 5 (carried 1 2 2 true)) 1 .release [5#16] fun t =>
        sound t 5 && (t.entry 5).acts 1 && decide ((t.entry 5).transit ≠ none))
      ∧ (dirTakes (live.putEntry 5 (owned 1)) 1 .release [5#16] fun t =>
        sound t 5 && (t.entry 5).acts 1 && decide ((t.entry 5).transit = none))
      ∧ (dirTakes (live.putEntry 5 (shared 3#4)) 1 .release [5#16] fun t =>
        sound t 5 && !(t.entry 5).acts 1 && HostSet.has (t.entry 5).holders 1 && decide ((t.entry 5).upgrade ≠ some 1))
      ∧ (dirTakes (live.putEntry 5 { shared 3#4 with upgrade := some 1 }) 1 .release [5#16] fun t =>
        sound t 5 && !(t.entry 5).acts 1 && HostSet.has (t.entry 5).holders 1 && decide ((t.entry 5).upgrade = some 1))
      ∧ (dirTakes live 1 .release [5#16] fun t =>
        sound t 5 && !(t.entry 5).acts 1 && !HostSet.has (t.entry 5).holders 1) := by decide +kernel

theorem witness_grantScanTable :
    let up := live.putEntry 5 { shared 2#4 with upgrade := some 1 }
    let wide := live.putEntry 5 { shared 3#4 with upgrade := some 1 }
    let head := live.putEntry 5 { LeaseEntry.reset with waiters := [(1, .exclusive), (2, .shared)] }
    let run := live.putEntry 5 { shared 1#4 with waiters := [(1, .shared), (2, .shared)] }
    ((up.entry 5).upgrade = some 1 ∧ (up.entry 5).state = .shared ∧ (up.entry 5).holders = HostSet.single 1)
      ∧ ((wide.entry 5).upgrade = some 1 ∧ (wide.entry 5).holders ≠ HostSet.single 1)
      ∧ ((head.entry 5).upgrade = none ∧ (head.entry 5).state = .free
        ∧ (head.entry 5).waiters = (1, .exclusive) :: [(2, .shared)])
      ∧ ((run.entry 5).upgrade = none ∧ (run.entry 5).state = .shared
        ∧ (run.entry 5).waiters = (1, .shared) :: [(2, .shared)] ∧ ((run.entry 5).waiters.map Prod.fst).Nodup)
      ∧ (live.entry 5).upgrade = none ∧ (live.entry 5).waiters = [] := by decide +kernel

theorem witness_downgradeAndWriteValue :
    ∀ x ∈ [(CommandKind.downgrade, [5#16]), (.writeValue, [5#16, 0xFFFF#16, 1#16])],
      (dirTakes (live.putEntry 5 (owned 0)) 1 x.1 x.2 fun t => sound t 5 && !(t.entry 5).acts 1)
        ∧ (dirTakes (live.putEntry 5 (carried 1 2 2 true)) 1 x.1 x.2 fun t =>
          sound t 5 && (t.entry 5).acts 1 && decide ((t.entry 5).transit ≠ none))
        ∧ (dirTakes (live.putEntry 5 (owned 1)) 1 x.1 x.2 fun t =>
          sound t 5 && (t.entry 5).acts 1 && decide ((t.entry 5).transit = none)) := by decide +kernel

/-- With the longest waiter list a lease can have, and with none. -/
theorem witness_queryReportsEntry :
    (dirTakes (live.putEntry 5 { owned 3 with waiters := [(0, .shared), (1, .shared), (2, .exclusive)] }) 1 .query [5#16]
        fun t => sound t 5 && decide ((t.entry 5).waiters.length ≤ 4))
      ∧ (dirTakes live 1 .query [63#16] fun t => sound t 63 && decide ((t.entry 63).waiters.length ≤ 4)) := by
  decide +kernel

theorem witness_upgradeChecksAndEffect :
    let two := live.putEntry 5 (shared 3#4)
    let pending := live.putEntry 5 { shared 3#4 with upgrade := some 0 }
    let held (t : State) := sound t 5 && !(t.entry 5).sentAway 1 && !(t.entry 5).acts 1 && HostSet.has (t.entry 5).holders 1
    (dirTakes (live.putEntry 5 (carried 1 2 2 false)) 1 .upgrade [5#16, 0#16] fun t => sound t 5 && (t.entry 5).sentAway 1)
      ∧ (dirTakes (live.putEntry 5 (owned 1)) 1 .upgrade [5#16, 0#16] fun t =>
        sound t 5 && !(t.entry 5).sentAway 1 && (t.entry 5).acts 1)
      ∧ (dirTakes live 1 .upgrade [5#16, 0#16] fun t =>
        sound t 5 && !(t.entry 5).sentAway 1 && !(t.entry 5).acts 1 && !HostSet.has (t.entry 5).holders 1)
      ∧ (dirTakes (live.putEntry 5 (shared 2#4)) 1 .upgrade [5#16, 0#16] fun t =>
        held t && decide ((t.entry 5).holders = HostSet.single 1))
      ∧ (dirTakes pending 1 .upgrade [5#16, 0#16] fun t =>
        held t && decide ((t.entry 5).holders ≠ HostSet.single 1 ∧ (t.entry 5).upgrade = some 0))
      ∧ ([0#16, 1#16, 65535#16].all fun wait => dirTakes two 1 .upgrade [5#16, wait] fun t =>
        held t && decide ((t.entry 5).holders ≠ HostSet.single 1 ∧ (t.entry 5).upgrade = none ∧ t.wait 1 = none)) = true
      ∧ (dirTakes (two.setWait 1 (some ⟨9, .claimShared, none⟩)) 1 .upgrade [5#16, 1#16] fun t =>
        held t && decide ((t.entry 5).holders ≠ HostSet.single 1 ∧ (t.entry 5).upgrade = none ∧ t.wait 1 ≠ none)) := by
  decide +kernel

theorem witness_cancelWaitEndsWait :
    (dirTakes live 1 .cancelWait [] fun t => decide (t.wait 1 = none))
      ∧ ∀ k ∈ [WaitKind.claimShared, .claimExclusive, .upgrade],
        dirTakes (live.setWait 1 (some ⟨5, k, some 9⟩)) 1 .cancelWait [] fun t =>
          sound t 5 && decide (t.wait 1 = some ⟨5, k, some 9⟩) := by decide +kernel

theorem witness_leaseWaitExpiries :
    ∀ k ∈ [WaitKind.claimShared, .claimExclusive, .upgrade],
      (live.setWait 1 (some ⟨5, k, some 0⟩)).wait 1 = some ⟨5, k, some 0⟩
        ∧ sound (live.setWait 1 (some ⟨5, k, some 0⟩)) 5 = true
        ∧ (flawed 5 .uncorrectable (live.setWait 1 (some ⟨5, k, some 0⟩))).wait 1 = some ⟨5, k, some 0⟩
        ∧ ((flawed 5 .uncorrectable live).dir.entries.get 5).chk = .uncorrectable := by decide +kernel

theorem witness_repairTakesStrandedLease :
    (dirTakes live 1 .repair [5#16] fun t => sound t 5 && decide ((t.entry 5).state ≠ .stranded))
      ∧ (dirTakes (live.putEntry 5 (stranded 0)) 1 .repair [5#16] fun t =>
        sound t 5 && decide ((t.entry 5).state = .stranded)) := by decide +kernel

/-- The state in which the directory has host 0's departure next on its path. -/
def leaving : State := busy.setDirPath [.departure 0 .left 1]

theorem witness_directoryDepartureSteps :
    let done (e : LeaseEntry) : State :=
      let s := busy.putEntry 9 e
      { s with dir := { s.dir with departing := upd s.dir.departing 0 (some ⟨1, [9]⟩) } }
    (leaving.dir.path = .departure 0 .left 1 :: [] ∧ transferAhead 0 1 leaving.store.path = false)
      ∧ (∀ e ∈ [shared 1#4, owned 0, carried 0 2 2 true, { owned 1 with waiters := [(0, .shared)] }, owned 1],
        (done e).dir.departing.get 0 = some ⟨1, [9]⟩ ∧ sound (done e) 9 = true)
      ∧ HostSet.has (shared 1#4).holders 0 = true
      ∧ (HostSet.has (owned 0).holders 0 = false ∧ (owned 0).acts 0 = true ∧ (owned 0).transit = none)
      ∧ ((carried 0 2 2 true).acts 0 = true ∧ (carried 0 2 2 true).transit ≠ none)
      ∧ ((owned 1).acts 0 = false ∧ 0 ∈ ({ owned 1 with waiters := [(0, .shared)] } : LeaseEntry).waiters.map Prod.fst)
      ∧ 0 ∉ (owned 1).waiters.map Prod.fst := by decide +kernel

theorem witness_departedHostHasNoRole :
    DirectoryOk leaving ∧ leaving.dir.path = .departure 0 .left 1 :: [] ∧ transferAhead 0 1 leaving.store.path = false
      ∧ ∃ t, exec (.directoryDeparture 0 .whole) leaving = .next t :=
  ⟨busy_directoryOk, rfl, rfl, _, rfl⟩

theorem witness_joinsAndDeparturesTaken :
    (live.setDirPath [.join 3 1]).dir.path = .join 3 1 :: [] ∧ (live.setDirPath [.join 3 1]).dir.departing.get 3 = none
      ∧ (let s := live.setDirPath [.join 3 2]
        ({ s with dir := { s.dir with departing := upd s.dir.departing 3 (some ⟨1, [9]⟩) } } : State).dir.departing.get 3
          ≠ none)
      ∧ takeStoreItem (live.setStorePath [.path (.join 3 1)]).store.path = some (.join 3 1, [])
      ∧ (live.setNoticePath [.join 3 1]).notice.path = .join 3 1 :: []
      ∧ (live.setNoticePath [.departure 1 .left 1]).notice.path = .departure 1 .left 1 :: []
      ∧ ((live.setPort 1 { live.port 1 with departures := [.left] }).port 1).departures = .left :: [] := by
  decide +kernel
/-! ## Witnesses: the message store -/

/-- Host 1 assembles this message in D0. -/
def composing (m : Message) : State :=
  (live.putDesc 0 ⟨.assembling, 1, 1, (m.length + 15) / 16, false, some m⟩).setStream 1 ⟨some 0, none, 0⟩

/-- Host 2 reads this message of host 1 in D1. -/
def reading (m : Message) : State :=
  let s := (live.putDesc 1 ⟨.opened, 1, 1, (m.length + 15) / 16, false, some m⟩).setStream 2 ⟨none, some 1, 0⟩
  { s with store := { s.store with inbound := upd s.store.inbound 2 ⟨[], [1]⟩ } }

/-- The store's quotas replaced. -/
def quotas (descs cells : Nat) (s : State) : State :=
  { s with store := { s.store with descQuota := descs, cellQuota := cells } }

/-- Host 2 waits for space. -/
def queued (s : State) : State :=
  let s := s.setSpace 2 (.waiting 4 (some 9))
  { s with store := { s.store with spaceList := [2] } }

/-- Every cell retired. -/
def noCells (s : State) : State := { s with store := { s.store with map := Vector.replicate 128 ⟨.retired, .sound⟩ } }

/-- Host 1 holds a reservation of r cells in D0, its cells at 0, 1 and so on. -/
def reserving (r : Nat) : State :=
  let s := (live.putDesc 0 ⟨.reserved, 1, 1, r, false, none⟩).setSpace 1 (.reserved 0 9)
  { s with store := { s.store with
      map := Vector.ofFn fun c => if c.val < r then ⟨.owned 0 c.val, .sound⟩ else ⟨.free, .sound⟩ } }

/-- The tests of R87 for host 1. -/
def quotaPasses (s : State) (n : Nat) : Bool :=
  decide (descUsage 1 s + 1 ≤ s.store.descQuota ∧ cellUsage 1 s + n ≤ s.store.cellQuota)

/-- The pool test of R87. -/
def poolPasses (s : State) (n : Nat) : Bool := decide (1 ≤ freeDescs s ∧ n ≤ freeCells s)

/-- Cell counts 15 and 16 lie on the two sides of the first check. -/
theorem witness_spaceWaitDecision :
    (storeTakes live 1 .spaceWait [16#16, 0#16] soundStore)
      ∧ (storeTakes (reserving 1) 1 .spaceWait [15#16, 0#16] fun t => soundStore t && decide (t.space 1 ≠ .empty))
      ∧ (storeTakes (quotas 16 14 live) 1 .spaceWait [15#16, 0#16] fun t =>
        soundStore t && decide (t.space 1 = .empty ∧ t.store.cellQuota < 15))
      ∧ (storeTakes (quotas 16 15 live) 1 .spaceWait [15#16, 0#16] fun t =>
        soundStore t && decide (t.space 1 = .empty ∧ t.store.spaceList = []) && quotaPasses t 15 && poolPasses t 15)
      ∧ ([0#16, 1#16, 65535#16].all fun wait => storeTakes (quotas 1 15 (composing (letter 2 0 0))) 1 .spaceWait [15#16, wait]
        fun t => soundStore t && decide (t.space 1 = .empty) && !quotaPasses t 15) = true
      ∧ ([0#16, 1#16, 65535#16].all fun wait => storeTakes (queued live) 1 .spaceWait [15#16, wait] fun t =>
        soundStore t && decide (t.space 1 = .empty ∧ t.store.spaceList ≠ []) && quotaPasses t 15) = true
      ∧ (storeTakes (noCells live) 1 .spaceWait [1#16, 0#16] fun t =>
        soundStore t && decide (t.space 1 = .empty) && quotaPasses t 1 && !poolPasses t 1) := by decide +kernel

theorem witness_spaceRecordEnds :
    (storeTakes live 1 .spaceCancel [] fun t => decide (t.space 1 = .empty))
      ∧ (storeTakes (queued live) 2 .spaceCancel [] fun t => decide (t.space 2 = .waiting 4 (some 9)))
      ∧ (storeTakes (reserving 2) 1 .spaceCancel [] fun t => decide (t.space 1 = .reserved 0 9))
      ∧ (live.setSpace 1 (.waiting 4 (some 0))).space 1 = .waiting 4 (some 0)
      ∧ (live.setSpace 1 (.reserved 0 0)).space 1 = .reserved 0 0 := by decide +kernel

theorem busy_storeSound : StoreSound busy := storeSound_of (by decide +kernel)

theorem witness_spaceScanGrantsInOrder :
    live.store.spaceList = []
      ∧ (StoreSound (quotas 16 1 busy) ∧ StoreOk (quotas 16 1 busy)
        ∧ (quotas 16 1 busy).store.spaceList = [] ++ 1 :: [] ∧ (quotas 16 1 busy).space 1 = .waiting 2 (some 9)
        ∧ (quotas 16 1 busy).store.cellQuota < 2)
      ∧ (StoreSound busy ∧ StoreOk busy ∧ busy.store.spaceList = 1 :: []
        ∧ (quotaPasses busy 2 && poolPasses busy 2) = true
        ∧ (quotas 16 4 busy).store.spaceList = 1 :: [] ∧ (!quotaPasses (quotas 16 4 busy) 2) = true
        ∧ ∀ (g : HostId) (m : Nat) (j : Option Nat), busy.space g = .waiting m j → m ≤ 4)
      ∧ lowestFree busy = some 4 ∧ busy.store.joined.get 1 = some 1 := by
  refine ⟨rfl, ⟨busy_storeSound, busy_storeOk, rfl, by decide +kernel, by decide +kernel⟩,
    ⟨busy_storeSound, busy_storeOk, rfl, by decide +kernel, rfl, by decide +kernel, ?_⟩, by decide +kernel,
    by decide +kernel⟩
  intro g m j e
  have q : ∀ g : HostId, (match busy.space g with
    | .waiting m _ => decide (m ≤ 4)
    | .empty | .reserved .. => true) = true := by decide +kernel
  have := q g
  rw [e] at this
  simpa using this

/-- Each argument of BEGIN at the first value refused (R104), and a destination that is not JOINED. -/
theorem witness_beginRefused :
    (storeTakes busy 1 .beginMessage [2#16, 0#16, 0#16, 0#16, 0xFFFF#16, 0#16, 0xFFFF#16] fun t =>
        decide ((t.stream 1).assembling ≠ none))
      ∧ ([[4#16, 0#16, 0#16, 0#16, 0xFFFF#16, 0#16, 0xFFFF#16], [1#16, 0#16, 0#16, 0#16, 0xFFFF#16, 0#16, 0xFFFF#16],
          [2#16, 241#16, 0#16, 0#16, 0xFFFF#16, 0#16, 0xFFFF#16], [2#16, 0#16, 2#16, 0#16, 0xFFFF#16, 0#16, 0xFFFF#16],
          [2#16, 0#16, 0#16, 0#16, 64#16, 0#16, 0xFFFF#16], [2#16, 0#16, 0#16, 0#16, 0xFFFF#16, 0#16, 0xFFFE#16],
          [3#16, 0#16, 0#16, 0#16, 0xFFFF#16, 0#16, 0xFFFF#16]].all fun args =>
        storeTakes live 1 .beginMessage args fun t => decide ((t.stream 1).assembling = none)) = true
      ∧ live.store.joined.get 3 = none := by decide +kernel

/-- The arguments of a message of 20 bytes, of the longest and of the shortest; with every optional lease and without. -/
theorem witness_beginArgs :
    BeginArgs 1 2#16 20#16 0#16 0x77#16 0xFFFF#16 0#16 0xFFFF#16 (letter 2 20 0)
      ∧ BeginArgs 1 3#16 0#16 0#16 0x77#16 0xFFFF#16 0#16 0xFFFF#16 (letter 3 0 0)
      ∧ BeginArgs 1 0#16 240#16 1#16 5#16 63#16 9#16 0#16 ⟨0, .urgent, 5, 240, 0, some (63, 9), some 0⟩ := by
  refine ⟨⟨?_, ?_, ?_, ?_, ?_, ?_, ?_, .inl ⟨?_, ?_⟩, .inl ⟨?_, ?_⟩⟩, ⟨?_, ?_, ?_, ?_, ?_, ?_, ?_, .inl ⟨?_, ?_⟩,
    .inl ⟨?_, ?_⟩⟩, ⟨?_, ?_, ?_, ?_, ?_, ?_, ?_, .inr ⟨63, ?_, ?_⟩, .inr ⟨0, ?_, ?_⟩⟩⟩ <;> decide +kernel

/-- The argument words of a BEGIN of host 1 to host 2 for 20 bytes, which need two cells. -/
def twoCells : List Word := [2#16, 20#16, 0#16, 0x77#16, 0xFFFF#16, 0#16, 0xFFFF#16]

theorem witness_beginByAdmission :
    let asks (s : State) (p : State → Bool) : Bool := storeTakes s 1 .beginMessage twoCells fun t =>
      soundStore t && decide ((t.stream 1).assembling = none ∧ t.store.joined.get 2 ≠ none ∧ t.space 1 = .empty) && p t
    (asks (quotas 16 1 live) fun t => !quotaPasses t 2)
      ∧ (asks (queued live) fun t => quotaPasses t 2 && decide (t.store.spaceList ≠ []))
      ∧ (asks (noCells live) fun t => quotaPasses t 2 && !poolPasses t 2)
      ∧ (asks live fun t => quotaPasses t 2 && poolPasses t 2
        && decide (t.store.spaceList = [] ∧ t.store.joined.get 1 = some 1)) := by decide +kernel

theorem witness_beginInReservation :
    let asks (r : Nat) (s : State) (p : State → Bool) : Bool := storeTakes s 1 .beginMessage twoCells fun t =>
      soundStore t && decide ((t.stream 1).assembling = none ∧ t.store.joined.get 2 ≠ none ∧ t.space 1 = .reserved 0 9
        ∧ (t.desc 0).cellCount = r) && p t
    (asks 2 (reserving 2) fun _ => true) ∧ (asks 3 (reserving 3) fun _ => true)
      ∧ (asks 1 (reserving 1) fun t => decide (cellUsage 1 t + (2 - 1) ≤ t.store.cellQuota ∧ 2 - 1 ≤ freeCells t))
      ∧ (asks 1 (quotas 16 1 (reserving 1)) fun t => decide (¬ cellUsage 1 t + (2 - 1) ≤ t.store.cellQuota)) := by
  decide +kernel

theorem witness_sendWindowIsBeginRoom :
    storeTakes live 1 .beginMessage twoCells (fun t => soundStore t
      && decide ((t.stream 1).assembling = none ∧ t.store.joined.get 1 ≠ none ∧ t.store.joined.get 2 ≠ none))
      ∧ 1 ≤ (letter 2 20 0).length := by decide +kernel

/-- A PAY word of host 1 is first on the store's path. -/
def payFirst (s : State) : State := s.setStorePath [.pay 1 0x6261#16]

/-- `busy` with the message of host 1 at another length and position. -/
def busyAt (length n : Nat) : State := busy.putDesc 0 ⟨.assembling, 1, 1, 2, false, some (letter 2 length n)⟩

/-- `busy` with a cell retired. -/
def busyLost (c : CellId) : State := busy.putMap c .retired

theorem busyAt_storeOk : StoreOk (busyAt 19 18) ∧ StoreOk (busyAt 20 16) :=
  ⟨⟨cellsOk_of (by decide +kernel), linksOk_of (by decide +kernel),
      positionsOk_of (by decide +kernel)⟩,
    ⟨cellsOk_of (by decide +kernel), linksOk_of (by decide +kernel),
      positionsOk_of (by decide +kernel)⟩⟩

theorem busyLost_storeOk (c : CellId) (h : c = 0 ∨ c = 2) : StoreOk (busyLost c) := by
  rcases h with rfl | rfl <;> exact ⟨cellsOk_of (by decide +kernel), busy_linksOk, positionsOk_of (by decide +kernel)⟩

/-- The last byte of a message of odd length, the first of a cell, one inside it with the cell sound and in error, and a
cell lost. -/
theorem witness_payWordWritten :
    (live.reaches 1 false .pay = true ∧ (live.record 1).state ≠ .offline ∧ (live.port 1).unadmitted = none
        ∧ ((written live 1 0x22#16 []).port 1).unadmitted ≠ none)
      ∧ (takePayWord 1 (payFirst live).store.path = some (0x6261#16, []) ∧ ((payFirst live).stream 1).assembling = none)
      ∧ (((busyAt 20 20).stream 1).assembling = some 0 ∧ ((busyAt 20 20).desc 0).msg = some (letter 2 20 20))
      ∧ (StoreOk (busyAt 19 18) ∧ StoreOk (busyAt 20 16) ∧ StoreOk busy ∧ StoreOk (busyLost 0))
      ∧ ((busyAt 19 18).mapEntry 1 = .owned 0 (18 / 16) ∧ (busyAt 19 18).store.cellChk.get 1 = .sound)
      ∧ (busyAt 20 16).mapEntry 1 = .owned 0 (16 / 16) ∧ busy.mapEntry 0 = .owned 0 (2 / 16)
      ∧ (∀ c, (busyLost 0).mapEntry c ≠ .owned 0 (2 / 16)) ∧ soundStore (busyLost 0) = true ∧ soundStore busy = true
      ∧ (∀ k : Check, StoreOk (busy.setCellChk 0 k) ∧ PayloadOk (busy.setCellChk 0 k))
      ∧ ([Check.correctable, .uncorrectable].all fun k => (busy.setCellChk 0 k).store.cellChk.get 0 = k) = true
      ∧ (PayloadOk (busyAt 19 18) ∧ PayloadOk (busyAt 20 16) ∧ PayloadOk (busyLost 0)) :=
  ⟨by decide +kernel, by decide +kernel, by decide +kernel,
    ⟨busyAt_storeOk.1, busyAt_storeOk.2, busy_storeOk, busyLost_storeOk 0 (.inl rfl)⟩, by decide +kernel,
    by decide +kernel, by decide +kernel, by decide +kernel, by decide +kernel, by decide +kernel,
    fun _ => ⟨busy_storeOk, busy_bounds.1⟩, by decide +kernel, busy_bounds.1, busy_bounds.1, busy_bounds.1⟩

/-- `busy` with host 2 at the last byte of its message. -/
def busyRead : State := busy.setStream 2 ⟨none, some 1, 2⟩

theorem busyRead_storeOk : StoreOk busyRead :=
  ⟨busy_cellsOk, linksOk_of (by decide +kernel), positionsOk_of (by decide +kernel)⟩

theorem witness_payWordRead :
    (∀ s ∈ [busy, busyRead, busyLost 2], s.reaches 2 true .pay = true ∧ (s.record 2).state ≠ .offline
        ∧ (s.port 2).busy = false ∧ payReadWaits 2 s = false ∧ (s.stream 2).openDesc = some 1
        ∧ (s.desc 1).msg = some (letter 2 3 3) ∧ (s.stream 2).readPos < 3 ∧ soundStore s = true)
      ∧ (StoreOk busy ∧ StoreOk busyRead ∧ StoreOk (busyLost 2))
      ∧ (busy.mapEntry 2 = .owned 1 (0 / 16) ∧ busyRead.mapEntry 2 = .owned 1 (2 / 16)
        ∧ (∀ k : Check, StoreOk (busyRead.setCellChk 2 k))
        ∧ ([Check.sound, .correctable, .uncorrectable].all fun k => (busyRead.setCellChk 2 k).store.cellChk.get 2 = k) = true
        ∧ ∀ c, (busyLost 2).mapEntry c ≠ .owned 1 (0 / 16))
      ∧ ((written live 1 0x25#16 []).port 1).busy = true
      ∧ (payReadWaits 2 (live.setStorePath [.pay 2 0#16]) = true ∧ (live.stream 2).openDesc = none)
      ∧ ((busy.setStream 2 ⟨none, some 1, 3⟩).stream 2).readPos = 3 := by
  refine ⟨?_, ⟨busy_storeOk, busyRead_storeOk, busyLost_storeOk 2 (.inr rfl)⟩,
    ⟨by decide +kernel, by decide +kernel, fun _ => busyRead_storeOk, by decide +kernel, by decide +kernel⟩,
    by decide +kernel, by decide +kernel, by decide +kernel⟩
  decide +kernel
/-- A message of two bytes, written, with a fence and a carried lease. -/
def sealed (fence : Option (LeaseId × Word)) (lease : Option LeaseId) : Message :=
  { letter 2 2 2 with fence := fence, carried := lease }

/-- The store takes host 1's COMMIT of this message on sound objects, past the checks it makes itself when `own` is
false, and what is asked holds. -/
def commits (s : State) (m : Message) (p : State → Bool) : Bool :=
  transferTakes s 1 .commit fun t =>
    soundStore t && decide ((t.stream 1).assembling = some 0 ∧ (t.desc 0).msg = some m) && p t

/-- The message passes the store's own checks. -/
def passesStore (t : State) (m : Message) : Bool :=
  decide (m.written = m.length ∧ t.store.joined.get m.dest ≠ none ∧ (t.queue m.dest).length < t.store.inboundLimit)

theorem witness_commitRefusedOrLost :
    (transferTakes live 1 .commit fun t => decide ((t.stream 1).assembling = none))
      ∧ (transferTakes (flawedDesc 0 .uncorrectable busy) 1 .commit fun t =>
          decide ((t.stream 1).assembling = some 0 ∧ (t.store.descs.get 0).chk = .uncorrectable)
            && allCells.all (fun c => decide ((t.store.map.get c).chk = .sound))
            && allLeases.all fun l => sound t l && decide ((t.entry l).transit.map Transit.desc ≠ some 0))
      ∧ (commits (composing (letter 2 2 0)) (letter 2 2 0) fun _ => true)
      ∧ (commits (composing (letter 3 2 2)) (letter 3 2 2) fun t => decide (t.store.joined.get 3 = none))
      ∧ (let s := busyAt 20 20
        commits { s with store := { s.store with inboundLimit := 2 } } (letter 2 20 20) fun t =>
          decide (t.store.joined.get 2 ≠ none ∧ t.store.inboundLimit ≤ (t.queue 2).length))
      ∧ (∀ e ∈ [LeaseEntry.reset, shared 1#4], commits ((composing (sealed (some (5, 3)) none)).putEntry 5 e)
        (sealed (some (5, 3)) none) fun t => passesStore t (sealed (some (5, 3)) none) && sound t 5
          && !((t.entry 5).generation = 3 && (t.entry 5).heldBy 1))
      ∧ (∀ l ∈ [(5 : LeaseId), 6], commits (flawed l .uncorrectable (composing (sealed (some (5, 3)) (some 6))))
        (sealed (some (5, 3)) (some 6)) fun t => passesStore t (sealed (some (5, 3)) (some 6))
          && decide ((t.dir.entries.get l).chk = .uncorrectable) && [(5 : LeaseId), 6].all fun x => decide (x = l) || sound t x)
      ∧ (commits ((composing (sealed none (some 6))).putEntry 6 (owned 0)) (sealed none (some 6)) fun t =>
        passesStore t (sealed none (some 6)) && sound t 6 && !(t.entry 6).acts 1)
      ∧ (commits ((composing (sealed none (some 6))).putEntry 6 (carried 1 2 2 true)) (sealed none (some 6)) fun t =>
        passesStore t (sealed none (some 6)) && sound t 6 && (t.entry 6).acts 1
          && decide ((t.entry 6).transit ≠ none)) := by decide +kernel

theorem witness_commitPlacesMessage :
    let held (t : State) : Bool := sound t 5 && decide ((t.entry 5).generation = 3) && (t.entry 5).heldBy 1
    (commits ((composing (sealed (some (5, 3)) none)).putEntry 5 (shared 2#4)) (sealed (some (5, 3)) none) fun t =>
        passesStore t (sealed (some (5, 3)) none) && held t)
      ∧ (commits (((composing (sealed (some (5, 3)) (some 6))).putEntry 5 (shared 2#4)).putEntry 6 (owned 1))
        (sealed (some (5, 3)) (some 6)) fun t => passesStore t (sealed (some (5, 3)) (some 6)) && held t && sound t 6
          && (t.entry 6).acts 1 && decide ((t.entry 6).transit = none)) := by decide +kernel

/-- The descriptors that UNWIND reads for the two hosts, each found uncorrectable; a loss that takes a lease along whose
sender is present, one whose sender is gone, and none. -/
theorem witness_abandonAndUnwind :
    (storeTakes live 1 .abandon [] fun t => decide ((t.stream 1).assembling = none))
      ∧ (storeTakes busy 1 .abandon [] fun t =>
        soundStore t && decide ((t.stream 1).assembling = some 0 ∧ (t.desc 0).msg = some (letter 2 20 2)))
      ∧ (storeTakes busy 2 .unwind [] fun t =>
        soundStore t && decide ((t.stream 2).assembling = none ∧ (t.stream 2).openDesc = some 1))
      ∧ (storeTakes busy 1 .unwind [] fun t => soundStore t && decide ((t.stream 1).assembling = some 0))
      ∧ (StoreOk (busy.setStorePath []) ∧ StoreSound busy)
      ∧ (storeTakes (flawedDesc 0 .uncorrectable busy) 1 .unwind [] fun t =>
        decide ((t.stream 1).assembling = some 0 ∧ (t.stream 1).openDesc = none ∧ (t.store.descs.get 0).chk = .uncorrectable))
      ∧ (storeTakes (flawedDesc 1 .uncorrectable busy) 2 .unwind [] fun t =>
        decide ((t.stream 2).assembling = none ∧ (t.stream 2).openDesc = some 1 ∧ (t.store.descs.get 1).chk = .uncorrectable))
      ∧ ([true, false].all fun present =>
        let s := busy.putEntry 7 (carried 0 2 2 present)
        soundStore s && allLeases.all fun l => sound s l
          && decide ((s.entry l).transit.map Transit.desc = some 2 ↔ l = 7) && decide ((s.entry 7).ownerPresent = present))
        = true :=
  ⟨by decide +kernel, by decide +kernel, by decide +kernel, by decide +kernel, ⟨busy_storeOk, busy_storeSound⟩,
    by decide +kernel, by decide +kernel, by decide +kernel⟩

/-- Host 2 has this message of host 1 QUEUED in D1, with one cell at cell 0 when `cell` holds. -/
def waiting (m : Message) (cell : Bool) : State :=
  let s := live.putDesc 1 ⟨.queued, 1, 1, (m.length + 15) / 16, false, some m⟩
  let s := { s with store := { s.store with inbound := upd s.store.inbound 2 ⟨[], [1]⟩ } }
  if cell then s.putMap 0 (.owned 1 0) else s.putMap 0 .retired

theorem witness_openTakesHead :
    (storeTakes busy 2 .openMessage [] fun t => decide ((t.stream 2).openDesc ≠ none))
      ∧ (storeTakes live 2 .openMessage [] fun t => decide ((t.stream 2).openDesc = none ∧ t.queue 2 = []))
      ∧ ∀ x ∈ [(letter 2 0 0, false), (letter 2 2 2, true), (letter 2 2 2, false), (sealed (some (5, 3)) (some 6), true)],
        storeTakes (waiting x.1 x.2) 2 .openMessage [] fun t => soundStore t && sound t 5 && sound t 6
          && decide ((t.stream 2).openDesc = none ∧ t.queue 2 = 1 :: [] ∧ (t.desc 1).msg = some x.1)
          && (decide (x.1.length = 0) || (x.2 == decide (t.mapEntry 0 = .owned 1 0))) := by decide +kernel

/-- The head's descriptor found uncorrectable, and each of the leases it names. -/
theorem witness_openTakesHead_inError :
    let m := sealed (some (5, 3)) (some 6)
    (storeTakes (flawedDesc 1 .uncorrectable (waiting m true)) 2 .openMessage [] fun t =>
        decide ((t.stream 2).openDesc = none ∧ t.queue 2 = 1 :: [] ∧ (t.store.descs.get 1).chk = .uncorrectable))
      ∧ ∀ l ∈ [(5 : LeaseId), 6],
        storeTakes (flawed l .uncorrectable (waiting m true)) 2 .openMessage [] fun t => soundStore t
          && decide ((t.desc 1).msg = some m ∧ t.mapEntry 0 = .owned 1 0 ∧ (t.dir.entries.get l).chk = .uncorrectable)
          && [(5 : LeaseId), 6].all fun x => decide (x = l) || sound t x := by decide +kernel

/-- Host 2 reads this message, and the lease it may carry has this entry. -/
def receiving (m : Message) (e : LeaseEntry) : State := (reading m).putEntry 6 e

theorem witness_acceptTakesMessage :
    let asks (m : Message) (s : State) (p : State → Bool) : Bool := transferTakes s 2 .accept fun t =>
      soundStore t && decide ((t.stream 2).openDesc = some 1 ∧ (t.desc 1).msg = some m) && p t
    let m := sealed none (some 6)
    (transferTakes live 2 .accept fun t => decide ((t.stream 2).openDesc = none))
      ∧ (transferTakes (flawedDesc 1 .uncorrectable busy) 2 .accept fun t =>
        decide ((t.stream 2).openDesc = some 1 ∧ (t.store.descs.get 1).chk = .uncorrectable))
      ∧ (asks (letter 2 2 2) (reading (letter 2 2 2)) fun _ => true)
      ∧ (asks m (flawed 6 .uncorrectable (reading m)) fun t => decide ((t.dir.entries.get 6).chk = .uncorrectable))
      ∧ (asks m (receiving m (owned 1)) fun t => sound t 6 && decide ((t.entry 6).transit.map Transit.desc ≠ some 1))
      ∧ (asks m (receiving m (carried 1 1 2 true)) fun t => sound t 6
        && decide ((t.entry 6).transit.map Transit.desc = some 1 ∧ (t.entry 6).owner = some 1
          ∧ (t.entry 6).ownerPresent = true))
      ∧ (asks m (receiving m (carried 1 1 2 false)) fun t => sound t 6
        && decide ((t.entry 6).transit.map Transit.desc = some 1 ∧ (t.entry 6).ownerPresent = false)) := by decide +kernel

theorem witness_refuseSendsBack :
    let asks (m : Message) (s : State) (p : State → Bool) : Bool := storeTakes s 2 .refuse [] fun t =>
      soundStore t && decide ((t.stream 2).openDesc = some 1 ∧ (t.desc 1).msg = some m) && p t
    let m := sealed none (some 6)
    (storeTakes live 2 .refuse [] fun t => decide ((t.stream 2).openDesc = none))
      ∧ (storeTakes (flawedDesc 1 .uncorrectable busy) 2 .refuse [] fun t =>
        decide ((t.stream 2).openDesc = some 1 ∧ (t.store.descs.get 1).chk = .uncorrectable))
      ∧ (asks (letter 2 2 2) (reading (letter 2 2 2)) fun _ => true)
      ∧ (asks m (flawed 6 .uncorrectable (reading m)) fun t => decide ((t.dir.entries.get 6).chk = .uncorrectable))
      ∧ (asks m (receiving m (owned 1)) fun t => sound t 6 && decide ((t.entry 6).transit.map Transit.desc ≠ some 1))
      ∧ (∀ present ∈ [true, false], asks m (receiving m (carried 1 1 2 present)) fun t => sound t 6
        && decide ((t.entry 6).transit.map Transit.desc = some 1 ∧ (t.entry 6).ownerPresent = present)) := by
  decide +kernel

/-- `busy` with a departure of host 2, who reads one message, has one queued and waits for nothing at the store. -/
def departing (h : HostId) : State := busy.setStorePath [.path (.departure h .lapsed 1)]

theorem witness_storeDepartureParts :
    ∀ h : HostId, takeStoreItem (departing h).store.path = some (.departure h .lapsed 1, [])
      ∧ StoreSound (departing h) ∧ StoreOk (departing h) :=
  fun _ => ⟨rfl, busy_storeSound, busy_storeOk⟩

theorem witness_departedHostLeavesStore :
    ∀ h : HostId, StoreOk (departing h) ∧ takeStoreItem (departing h).store.path = some (.departure h .lapsed 1, [])
      ∧ ∃ t, exec (.storeDeparture h) (departing h) = .next t := by
  intro h
  refine ⟨busy_storeOk, rfl, departStore h ((departing h).setStorePath []), ?_⟩
  simp only [exec, execStoreDeparture]
  rw [show takeStoreItem (departing h).store.path = some (.departure h .lapsed 1, []) from rfl]
  exact if_pos rfl

/-! ## Witnesses: settings, notices, ports, ticks -/

/-- The two ends of a setting's range, and the values beside them (R147). -/
theorem witness_setParamRecordsValue :
    let charter := live.putEntry 0 (owned 0)
    (settingsTakes live 0 .setParam [3#16, 16#16] fun t => sound t 0 && !(t.entry 0).acts 0)
      ∧ (∀ k ∈ [Check.correctable, .uncorrectable], settingsTakes (flawed 0 k charter) 0 .setParam [3#16, 16#16] fun t =>
        decide ((t.dir.entries.get 0).chk = k))
      ∧ ([[6#16, 16#16], [2#16, 0#16], [2#16, 1#16], [3#16, 128#16], [3#16, 129#16], [0#16, 99#16], [0#16, 100#16],
          [5#16, 60000#16]].all fun args => settingsTakes charter 0 .setParam args fun t =>
            sound t 0 && (t.entry 0).acts 0) = true
      ∧ ([Setting.descQuota, .cellQuota, .inboundLimit].all fun x => decide (({ live with store := { live.store with
          changes := [⟨x, 16, 1, 0, 7⟩] } } : State).store.changes = ⟨x, 16, 1, 0, 7⟩ :: [])) = true := by decide +kernel

theorem witness_readParamReportsSetting :
    ([0#16, 1#16, 2#16, 3#16, 4#16, 5#16, 6#16].all fun w => settingsTakes live 3 .readParam [w] fun _ => true) = true := by
  decide +kernel

theorem witness_countsAndDeviceStatus :
    (∀ n ∈ [0, 1], ({ live with settings := { live.settings with
        correctedDue := n + 1, uncorrectedDue := n + 1, corrected := 65535, uncorrected := 255 } } : State).settings.correctedDue
          = n + 1)
      ∧ (settingsTakes live 1 .clearCounts [] fun t => sound t 0 && !(t.entry 0).acts 1)
      ∧ (settingsTakes (live.putEntry 0 (owned 1)) 1 .clearCounts [] fun t => sound t 0 && (t.entry 0).acts 1)
      ∧ (∀ k ∈ [Check.correctable, .uncorrectable], settingsTakes (flawed 0 k live) 1 .clearCounts [] fun t =>
        decide ((t.dir.entries.get 0).chk = k))
      ∧ (settingsTakes (live.upsetMap 3) 1 .deviceStatus [] fun t => decide ((t.store.map.get 3).chk = .correctable)) := by decide +kernel

/-- The state with this ring for host 1, and an offer in its session. -/
def ringing (ring : List Notice) (session : Option Nat) : State :=
  { live with notice := { live.notice with
    rings := upd live.notice.rings 1 ring
    offers := upd live.notice.offers 1 [⟨.spaceReady 4, session⟩] } }

/-- A ring of 7 takes one more and a ring of 8 does not (R137), of the session counted and of one whose join is still to
come; offers of a session counted out, and to a host that is not JOINED; NEXT_NOTICE takes from a full ring and an empty one. -/
theorem witness_noticesEnterAndLeave :
    (∀ n ∈ [7, 8], ((ringing (List.replicate n (.spaceReady 1)) (some 1)).notice.offers.get 1)[0]?
          = some ⟨.spaceReady 4, some 1⟩
        ∧ (ringing (List.replicate n (.spaceReady 1)) (some 1)).notice.joined.get 1 = some 1
        ∧ ((ringing (List.replicate n (.spaceReady 1)) (some 1)).ring 1).length = n)
      ∧ (let o : Offer := ⟨.spaceReady 4, some 2⟩
        let newer := (ringing [] (some 2)).setNoticePath [.departure 1 .left 1, .join 1 2]
        ((ringing [] (some 2)).notice.offers.get 1)[0]? = some o ∧ o.session = some 2 ∧ (2 : Nat) ≠ 1
          ∧ live.notice.joined.get 1 = some 1 ∧ .join 1 2 ∉ live.notice.path ∧ .join 1 2 ∈ newer.notice.path
          ∧ newer.notice.joined.get 1 = some 1)
      ∧ ([Notice.peerJoined 2 4, .peerDeparted 2 .left, .fault .cell 3].all fun n =>
        let s := { live with notice := { live.notice with offers := upd live.notice.offers 1 [⟨n, some 2⟩] } }
        decide ((s.notice.offers.get 1)[0]? = some ⟨n, some 2⟩ ∧ s.notice.joined.get 1 = some 1)) = true
      ∧ (({ live with notice := { live.notice with offers := upd live.notice.offers 3 [⟨.spaceReady 4, none⟩] } }
          : State).notice.offers.get 3)[0]? = some ⟨.spaceReady 4, none⟩ ∧ live.notice.joined.get 3 = none
      ∧ (noticeTakes live 1 .nextNotice [] fun t => decide (t.ring 1 = []))
      ∧ (noticeTakes (ringing (List.replicate 8 (.spaceReady 1)) none) 1 .nextNotice [] fun t =>
        decide (t.ring 1 = .spaceReady 1 :: List.replicate 7 (.spaceReady 1) ∧ (List.replicate 7 (1 : Nat)).length ≤ 7)) := by
  decide +kernel

/-- A frame of 7 words takes one more and a frame of 8 does not (R169). -/
theorem witness_windowWrites :
    (live.record 1).state ≠ .offline ∧ live.reaches 1 false .arg = true ∧ live.reaches 1 false .cmd = true
      ∧ live.reaches 1 false .amask = true ∧ (live.port 1).busy = false ∧ ((written live 1 1#16 []).port 1).busy = true
      ∧ (∀ n ∈ [7, 8], ((live.setPort 1 { live.port 1 with args := List.replicate n 0#16 }).port 1).args.length = n)
      ∧ (State.reset.record 1).state = .offline
      ∧ (live.setPort 1 { live.port 1 with mode := .serial }).reaches 1 false .arg = false := by decide +kernel

/-- Reply positions 0, 7 and 8 (R171). -/
theorem witness_windowReads :
    let ready (n : Nat) : Port := { live.port 1 with replyReady := true, replyPos := n }
    (live.record 1).state ≠ .offline ∧ live.reaches 1 true .pstat = true ∧ live.reaches 1 true .pcount = true
      ∧ live.reaches 1 true .rpl = true ∧ soundStore live = true ∧ (live.queue 1).length ≤ 48 ∧ (live.ring 1).length ≤ 8
      ∧ ((written live 1 1#16 []).port 1).busy = true
      ∧ (∀ i : Fin 8, (ready i.val).busy = false ∧ (ready i.val).replyReady = true ∧ (ready i.val).replyPos = i.val)
      ∧ ((ready 8).busy = false ∧ 8 ≤ (ready 8).replyPos) ∧ (live.port 1).replyReady = false
      ∧ (State.reset.record 1).state = .offline ∧ State.reset.reaches 1 true .rpl = true
      ∧ (live.setPort 1 { live.port 1 with mode := .serial }).reaches 1 true .rpl = false := by decide +kernel

theorem witness_replyArrivalPlacesReply :
    let r : Reply := ⟨7, [0#16, 1#16], false⟩
    let p : Port := { live.port 1 with replies := [r], inFlight := some 7 }
    let q : Port := { live.port 1 with replies := [⟨7, [0#16, 1#16], true⟩], departures := [.left], orphaned := [7] }
    (p.replies[0]? = some r ∧ r.afterLeave = false ∧ r.id ∉ p.orphaned ∧ p.inFlight = some r.id)
      ∧ (q.replies[0]? = some ⟨7, [0#16, 1#16], true⟩ ∧ .left ∈ q.departures)
      ∧ r.id ∈ q.orphaned := by decide +kernel

theorem witness_serialTransactions :
    let at_ (p : SerialPhase) : State := live.setPort 1 { live.port 1 with mode := .serial, serial := p }
    ((at_ .idle).port 1).mode = .serial ∧ ((at_ .idle).port 1).serial = .idle ∧ ((at_ .header).port 1).serial = .header
      ∧ (0x83#8 : Byte) = encodeHeader true .rpl
      ∧ (∀ loc ∈ [Loc.rpl, .ident], ((at_ (.data true loc)).port 1).serial = .data true loc)
      ∧ quietRead (at_ (.data true .rpl)) 1 .rpl = none
      ∧ quietRead (at_ (.data true .ident)) 1 .ident = some 0x0105#16 ∧ (∀ read : Bool,
        ∀ loc ∈ [Loc.pstat, .cmd, .arg, .rpl, .pay, .amask, .pcount, .ident], (0x08#8 : Byte) ≠ encodeHeader read loc)
      ∧ (live.port 1).mode = .parallel := by decide +kernel

/-- One period before the end of a tick, and the last (R146); timers at 1 and at 0. -/
theorem witness_ticksProducedAndTaken :
    State.reset.resetn = true ∧ live.resetn = false ∧ live.timeBase.count + 1 < live.timeBase.divider
      ∧ ({ live with timeBase := ⟨24999, 25000⟩ } : State).timeBase.count + 1 = 25000 ∧ 0 < live.settings.tickDiv
      ∧ (let s := { live with presence := { live.presence with ticks := 1 } }
        s.presence.ticks = 0 + 1 ∧ (∀ h, (s.record h).state = .joined → (s.record h).term ≠ some 0)
          ∧ ((s.setRecord 1 ⟨.joined, 1, some 0, none⟩).record 1).term = some 0)
      ∧ (let s := { busy with dir := { busy.dir with ticks := 1 }, store := { busy.store with ticks := 1 } }
        s.dir.ticks = 0 + 1 ∧ s.store.ticks = 0 + 1
          ∧ (∀ h : HostId, s.wait h = none ∨ s.wait h = some ⟨5, .claimExclusive, some 9⟩)
          ∧ (s.setWait 1 (some ⟨5, .upgrade, some 0⟩)).wait 1 = some ⟨5, .upgrade, some 0⟩
          ∧ (∀ h : HostId, s.space h = .empty ∨ s.space h = .reserved 3 9 ∨ s.space h = .waiting 2 (some 9))
          ∧ (s.setSpace 1 (.waiting 2 (some 0))).space 1 = .waiting 2 (some 0)
          ∧ (s.setSpace 0 (.reserved 3 0)).space 0 = .reserved 3 0) := by decide +kernel

/-! ## Witnesses: the whole part -/

/-- `busy` with a tick of the store next in the queue. -/
def ticking : State := { busy with pending := [.tick .store] }

theorem witness_stepsKeepSound :
    DirectoryOk ticking ∧ StoreOk ticking ∧ TransitOk ticking
      ∧ (PayloadOk ticking ∧ RingsOk ticking ∧ SettingsOk ticking ∧ PortsOk ticking ∧ PresenceOk ticking)
      ∧ ∃ t, step ticking = .next t :=
  ⟨busy_directoryOk, busy_storeOk, busy_transitOk, busy_bounds, _, rfl⟩

theorem witness_generationsAndRetiredCells :
    (∃ t, exec (.tick .store) busy = .next t) ∧ Instr.tick .store ≠ .resetnAssert
      ∧ busy.entry 7 ≠ LeaseEntry.rebuilt ∧ (busyLost 0).mapEntry 0 = .retired := by
  refine ⟨⟨_, rfl⟩, by decide +kernel, by decide +kernel, by decide +kernel⟩

theorem witness_otherWindowsUntouched :
    (∃ t, exec (.argWrite 1 5#16) busy = .next t) ∧ hostOf (.argWrite 1 5#16) ≠ some 2
      ∧ Instr.argWrite 1 5#16 ≠ .resetnAssert := by
  refine ⟨⟨_, rfl⟩, by decide +kernel, by decide +kernel⟩

theorem witness_charterGuardsThePart :
    (∃ t, exec (.join 3) (written busy 3 1#16 []) = .next t ∧ (t.record 3).session ≠ (busy.record 3).session)
      ∧ SettingsOk busy :=
  ⟨⟨_, rfl, by decide +kernel⟩, busy_bounds.2.2.1⟩

theorem witness_usageRisesWithinQuota :
    StoreOk busy ∧ ∃ t, exec (.spaceCancel 0) busy = .next t := ⟨busy_storeOk, _, rfl⟩
/-! ## Single steps, with the results of the spec's figures -/

/-- All four hosts JOINED, each in session 6. -/
def four : State :=
  { live with
    presence := { State.reset.presence with records := Vector.replicate 4 ⟨.joined, 6, some 2000, none⟩ }
    dir := { live.dir with joined := Vector.replicate 4 (some 6) }
    store := { live.store with joined := Vector.replicate 4 (some 6) }
    notice := { live.notice with joined := Vector.replicate 4 (some 6) } }

/-- The reply's words when the directory takes this command first. -/
def dirSays (s : State) (h : HostId) (k : CommandKind) (args : List Word) (i : Instr) : Option (List Word) :=
  answered (exec i (s.setDirPath [.command ⟨h, 7, k.code, args⟩])) h

/-- The reply's words when the store takes this command first. -/
def storeSays (s : State) (h : HostId) (k : CommandKind) (args : List Word) (i : Instr) : Option (List Word) :=
  answered (exec i (s.setStorePath [.path (.command ⟨h, 7, k.code, args⟩)])) h

/-- The reply's words when the settings block takes this command first. -/
def settingsSays (s : State) (h : HostId) (k : CommandKind) (args : List Word) (i : Instr) : Option (List Word) :=
  answered (exec i (s.setSettingsPath [.command ⟨h, 7, k.code, args⟩])) h

/-- Figure 1-1: the expiry of host 2's term, and STATUS after it. -/
theorem test_term_expiry_and_status :
    (after (exec (.termExpiry 2) (four.setRecord 2 ⟨.joined, 4, some 0, none⟩)) fun t =>
        decide (t.record 2 = ⟨.fenced, 4, none, some .lapsed⟩
          ∧ (t.notice.offers.get 0).map Offer.notice = [.peerDeparted 2 .lapsed])) = true
      ∧ answered (exec (.status 2) (written (four.setRecord 2 ⟨.fenced, 4, none, some .lapsed⟩) 2 0x04#16 [])) 2
        = some [0x00#16, 2#16, 3#16, 4#16, 0#16, 1#16] := by decide +kernel

/-- Figure 1-2, steps 5 and 8: the eviction, and the evicted host's next JOIN. -/
theorem test_evict_and_rejoin :
    (after (exec (.evict 0 1#16) (written (live.putEntry 0 (owned 0)) 0 0x05#16 [1#16])) fun t =>
        decide (t.record 1 = ⟨.fenced, 1, none, some .evicted⟩)) = true
      ∧ answered (exec (.join 1) (written (live.setRecord 1 ⟨.fenced, 1, none, some .evicted⟩) 1 0x01#16 [])) 1
        = some [0x00#16, 1#16, 2#16, 2000#16] := by decide +kernel

/-- R80: an EVICT admitted before its caller lapsed passes while the directory still holds the caller in L0, and is
refused CHARTER after. -/
theorem test_evict_admitted_before_departure :
    let lapsed (e : LeaseEntry) : State :=
      ((live.putEntry 0 e).setRecord 0 ⟨.fenced, 1, none, some .lapsed⟩).setEvicting 0 (some ⟨0, 7, 0x05#16, [1#16]⟩)
    answered (exec (.evict 0 1#16) (lapsed (owned 0))) 0 = some [0x00#16, 1#16, 1#16]
      ∧ answered (exec (.evict 0 1#16) (lapsed (stranded 0))) 0 = some [0x40#16] := by decide +kernel

/-- Figure 2-1, steps 3, 6 and 7. -/
theorem test_claims_and_value :
    dirSays (four.putEntry 5 { shared 6#4 with generation := 0 }) 0 .claim [5, 2, 0] (.claim 0 5 2 0)
        = some [0x10#16, 1#16, 0#16]
      ∧ dirSays four 0 .claim [5, 2, 0] (.claim 0 5 2 0) = some [0x00#16, 5#16, 2#16, 1#16]
      ∧ (after (exec (.writeValue 0 5 0x0001 0x2000) ((four.putEntry 5 { owned 0 with generation := 1 }).setDirPath
          [.command ⟨0, 7, 0x17, [5, 0x0001, 0x2000]⟩])) fun t => decide ((t.entry 5).value = 0x00012000#32)) = true := by
  decide +kernel

/-- Figure 2-2 and figure 3-1, step 4: a release with no waiter, and one whose scan grants the run at the head. -/
theorem test_release :
    dirSays (four.putEntry 9 { owned 3 with generation := 7 }) 3 .release [9] (.release 3 9)
        = some [0x00#16, 0#16, 7#16, 0#16]
      ∧ dirSays (four.putEntry 12 { owned 0 with
          generation := 4, waiters := [(1, .shared), (2, .exclusive), (3, .shared)] }) 0 .release [12] (.release 0 12)
        = some [0x00#16, 1#16, 4#16, 1#16] := by decide +kernel

/-- Figure 3-1, step 2: the second claim in the list, without a deadline. -/
theorem test_claim_queued :
    dirSays (four.putEntry 12 { owned 0 with generation := 4, waiters := [(1, .shared)] }) 2 .claim [12, 2, 65535]
        (.claim 2 12 2 65535) = some [0x01#16, 12#16, 2#16, 2#16, 2#16, 4#16, 0xFFFF#16] := by decide +kernel

/-- Figure 3-2, steps 1, 4 and 6. -/
theorem test_upgrade_and_downgrade :
    dirSays (four.putEntry 20 { shared 3#4 with generation := 6 }) 0 .upgrade [20, 200] (.upgrade 0 20 200)
        = some [0x01#16, 20#16, 3#16, 1#16, 1#16, 6#16, 200#16]
      ∧ dirSays (four.putEntry 20 { shared 3#4 with generation := 6, upgrade := some 0 }) 1 .upgrade [20, 100]
        (.upgrade 1 20 100) = some [0x16#16, 0#16]
      ∧ dirSays (four.putEntry 20 { owned 0 with generation := 7, waiters := [(2, .shared)] }) 0 .downgrade [20]
        (.downgrade 0 20) = some [0x00#16, 7#16, 1#16] := by decide +kernel

/-- Figure 4-2, step 2, and figure 10-1, step 1: a repair, and a query that finds two bits in error. -/
theorem test_repair_and_damage :
    dirSays (four.putEntry 3 { stranded 1 with generation := 9, value := 4 }) 2 .repair [3] (.repair 2 3)
        = some [0x00#16, 3#16, 10#16, 0#16, 1#16, 0#16, 0#16, 4#16]
      ∧ dirSays (flawed 6 .uncorrectable (four.putEntry 6 { carried 1 20 3 true with waiters := [(2, .shared)] })) 0 .query
        [6] (.query 0 6) = some [0x50#16] := by decide +kernel

/-- Figure 2-1, step 13: SHARED with holder 2 alone, generation 1, value 00012000h. -/
theorem test_query :
    dirSays (four.putEntry 5 { shared 4#4 with generation := 1, value := 0x00012000 }) 1 .query [5] (.query 1 5)
        = some [0x00#16, 0x004D#16, 0xFFFF#16, 0xFFFF#16, 0xFFFF#16, 1#16, 1#16, 0x2000#16] := by decide +kernel

/-- Figure 6-2, case b: a reservation used as it is. -/
theorem test_begin_in_reservation :
    storeSays (reserving 4) 1 .beginMessage [2, 64, 0, 0, 0xFFFF, 0, 0xFFFF] (.beginMessage 1 2 64 0 0 0xFFFF 0 0xFFFF)
        = some [0x00#16, 4#16, 1#16, 0#16, 0#16] := by decide +kernel

/-- The message of figure 6-1, with a number of bytes written. -/
def figureMessage (n : Nat) : Message := ⟨0, .urgent, 0x0A51, 37, n, some (5, 1), some 8⟩

/-- The state of figure 6-1: host 2 holds L8 at generation 3 with value 2 and L5 at generation 1, and has D3. -/
def figure (st : DescState) (n : Nat) (e8 : LeaseEntry) : State :=
  let s := (four.putEntry 8 { e8 with value := 2 }).putEntry 5 { shared 4#4 with generation := 1 }
  let s := s.putDesc 3 ⟨st, 2, 6, 3, false, some (figureMessage n)⟩
  ((s.putMap 17 (.owned 3 0)).putMap 18 (.owned 3 1)).putMap 40 (.owned 3 2)

/-- Figure 6-1, steps 3 and 6. -/
theorem test_commit :
    storeSays ((figure .assembling 36 (owned 2)).setStream 2 ⟨some 3, none, 0⟩) 2 .commit [] (.commit 2)
        = some [0x24#16, 36#16, 37#16]
      ∧ storeSays ((figure .assembling 37 (owned 2)).setStream 2 ⟨some 3, none, 0⟩) 2 .commit [] (.commit 2)
        = some [0x00#16, 3#16, 8#16, 3#16, 3#16] := by decide +kernel

/-- Figure 6-1, step 4: the last byte, C4h, in cell 40 at offset 4, and nothing beside it. -/
theorem test_pay_write :
    (after (exec (.payWrite 2 .taken) (((figure .assembling 36 (owned 2)).setStream 2 ⟨some 3, none, 0⟩).setStorePath
        [.pay 2 0xFFC4#16])) fun t =>
      decide ((t.desc 3).msg = some (figureMessage 37) ∧ t.store.payload = [(40 * 16 + 4, 0xC4#8)])) = true := by
  decide +kernel

/-- The state of figure 7-1, D3 at host 0 in this descriptor state. -/
def delivered (st : DescState) (pos : Nat) (present : Bool) : State :=
  let s := figure st 37 { carried 2 3 0 present with waiters := [(0, .exclusive), (1, .shared)] }
  let s := (s.setWait 0 (some ⟨8, .claimExclusive, some 1000⟩)).setStream 0
    ⟨none, if st = .opened then some 3 else none, pos⟩
  { s with store := { s.store with
    inbound := upd s.store.inbound 0 ⟨[3], []⟩, payload := [(40 * 16 + 4, 0xC4#8)] } }

/-- Figure 7-1, step 1. -/
theorem test_open :
    storeSays (delivered .queued 0 true) 0 .openMessage [] (.openMessage 0)
      = some [0x00#16, 0x0602#16, 0x0A51#16, 37#16, 5#16, 1#16, 8#16, 0x0303#16] := by decide +kernel

/-- R163, R155: a head of length 0 has no position to look up, and an error elsewhere in the map stays unfound. -/
theorem test_open_without_positions :
    (after (exec (.openMessage 2) ((((waiting (letter 2 0 0) false).upsetMap 9).upsetMap 9).setStorePath
        [.path (.command ⟨2, 7, CommandKind.openMessage.code, []⟩)])) fun t =>
      decide ((t.store.map.get 9).chk = .uncorrectable ∧ (t.stream 2).openDesc = some 1)) = true := by decide +kernel

/-- Figure 7-1, steps 3 and 4. -/
theorem test_pay_read :
    (after (exec (.payRead 0) (delivered .opened 36 true)) fun t =>
        decide ((t.port 0).dataOut = 0x00C4#16 ∧ (t.stream 0).readPos = 37)) = true
      ∧ (after (exec (.payRead 0) (delivered .opened 37 true)) fun t =>
        decide ((t.port 0).dataOut = 0#16 ∧ (t.port 0).overrun = true)) = true := by decide +kernel

/-- Figure 7-1, step 5. -/
theorem test_accept :
    storeSays (delivered .opened 37 true) 0 .accept [] (.accept 0)
      = some [0x00#16, 1#16, 8#16, 4#16, 0#16, 0#16, 2#16, 1#16] := by decide +kernel

/-- Figure 7-2, step 3: the sender gone, the bounce dropped by the filter. -/
theorem test_refuse :
    storeSays { delivered .opened 0 false with store := { (delivered .opened 0 false).store with
        joined := upd (delivered .opened 0 false).store.joined 2 none } } 0 .refuse [] (.refuse 0)
      = some [0x00#16, 2#16, 8#16, 0#16] := by decide +kernel

/-- Figure 8-1, step 3: a full ring, three notices lost; GRANTED(L2, EXCLUSIVE, 5) is the oldest. -/
theorem test_next_notice :
    answered (exec (.nextNotice 1) { four with notice := { four.notice with
        rings := upd four.notice.rings 1 (.granted 2 .exclusive 5 :: List.replicate 7 (.spaceReady 1))
        lost := upd four.notice.lost 1 3
        path := [.command ⟨1, 7, 0x30, []⟩] } }) 1
      = some [0x00#16, 0x0701#16, 0x0007#16, 2#16, 2#16, 5#16, 0#16, 3#16] := by decide +kernel

/-- R137 and R138: a FAULT from before the host's rejoin is entered; a SPACE_READY from then is not. -/
theorem test_notice_offer_after_rejoin :
    ([Notice.fault .cell 3, .spaceReady 4].map fun n =>
        after (exec (.noticeOffer 1 0) { live with notice := { live.notice with
          offers := upd live.notice.offers 1 [⟨n, some 255⟩] } }) fun t => decide (t.ring 1 = [n]))
      = [true, false] := by decide +kernel

/-- Figure 9-1, steps 1, 2 and 4. -/
theorem test_settings :
    settingsSays (four.putEntry 0 (owned 0)) 1 .setParam [3, 10] (.setParam 1 3 10) = some [0x40#16]
      ∧ settingsSays (four.putEntry 0 (owned 0)) 0 .setParam [3, 200] (.setParam 0 3 200) = some [0x41#16]
      ∧ settingsSays (four.setSetting .cellQuota 10) 2 .readParam [3] (.readParam 2 3)
        = some [0x00#16, 3#16, 10#16, 1#16, 128#16, 48#16] := by decide +kernel

/-- Figure 11-1, steps 1 to 3, and the IDENT example of R167. -/
theorem test_window :
    (after (exec (.cmdWrite 1 0x0010) (four.setPort 1 { four.port 1 with args := [5, 2], replyReady := true, replyPos := 3 }))
        fun t => decide ((t.port 1).args = [] ∧ (t.port 1).busy = true ∧ (t.port 1).replyReady = false
          ∧ (t.port 1).replyPos = 0 ∧ (t.port 1).unadmitted = some ⟨1, 0, 0x0010, [5, 2]⟩)) = true
      ∧ identWord (four.setPort 2 { four.port 2 with mode := .serial }) 2 = 0x0106#16 := by decide +kernel

/-- R179: header 87h selects a read of IDENT and takes no access; the word after it is read and drives SDO. -/
theorem test_header_of_ident :
    let at_ (p : SerialPhase) : State := four.setPort 2 { four.port 2 with mode := .serial, serial := p }
    (after (exec (.headerByte 2 (.byte 0x87#8)) (at_ .header)) fun t => decide (t = at_ (.data true .ident))) = true
      ∧ (after (exec (.headerByte 2 .quietWord) (at_ (.data true .ident))) fun t =>
        decide ((t.port 2).dataOut = 0x0106#16 ∧ (t.port 2).sdoDriven = true)) = true := by decide +kernel

end Sys2Proof.Machine.Tests
end

section
/-! PROOF. JOIN, RENEW and STATUS at the presence unit: what taking one of its commands does to the records, what a
notice offered to the peers comes to, and the obligations about the three commands. -/

namespace Sys2Proof.Machine

open Sys2Proof

/-! ## The records and settings while a command is taken (R4, R5) -/

@[simp] theorem State.takeWritten_record (s : State) (h g : HostId) : (s.takeWritten h).record g = s.record g := rfl

@[simp] theorem State.passParked_record (s : State) (h g : HostId) : (s.passParked h).record g = s.record g := rfl

@[simp] theorem State.passParked_settings (s : State) (h : HostId) : (s.passParked h).settings = s.settings := rfl

@[simp] theorem State.reloadTerm_settings (s : State) (h : HostId) : (s.reloadTerm h).settings = s.settings := by
  unfold State.reloadTerm
  split <;> rfl

theorem State.reloadTerm_record_of_joined {s : State} {h : HostId} (j : (s.record h).state = .joined) :
    (s.reloadTerm h).record h = { s.record h with term := some s.settings.presenceTerm } := by
  simp [State.reloadTerm, j]

theorem State.reloadTerm_of_not_joined {s : State} {h : HostId} (n : (s.record h).state ≠ .joined) :
    s.reloadTerm h = s := if_neg n

theorem takePresenceCommand_settings {s t : State} {h : HostId} {k : CommandKind} {args : List Word} {id : Nat}
    (taken : s.takePresenceCommand h k args = some (id, t)) : t.settings = s.settings := by
  obtain ⟨-, c, -, -, -, -, rfl⟩ := takePresenceCommand_some taken
  simp

theorem takePresenceCommand_record_of_joined {s t : State} {h : HostId} {k : CommandKind} {args : List Word} {id : Nat}
    (taken : s.takePresenceCommand h k args = some (id, t)) (j : (s.record h).state = .joined) :
    t.record h = { s.record h with term := some s.settings.presenceTerm } := by
  obtain ⟨-, c, -, -, -, -, rfl⟩ := takePresenceCommand_some taken
  exact State.reloadTerm_record_of_joined (s := s.takeWritten h) j

theorem takePresenceCommand_record_of_not_joined {s t : State} {h : HostId} {k : CommandKind} {args : List Word}
    {id : Nat} (taken : s.takePresenceCommand h k args = some (id, t)) (n : (s.record h).state ≠ .joined)
    (g : HostId) : t.record g = s.record g := by
  obtain ⟨-, c, -, -, -, -, rfl⟩ := takePresenceCommand_some taken
  simp [State.reloadTerm_of_not_joined (s := s.takeWritten h) n]

/-! ## A notice offered to the peers (R7, R16, R137) -/

@[simp] theorem State.offer_record (s : State) (h g : HostId) (n : Notice) (k : Option Nat) :
    (s.offer h n k).record g = s.record g := rfl

/-- One step of `State.offerPeers`: the notice about h goes to g when g is another JOINED host. -/
def State.tellPeer (h : HostId) (n : Notice) (s : State) (g : HostId) : State :=
  if g ≠ h ∧ (s.record g).state = .joined then s.offer g n (some (s.record g).session) else s

/-- The notices on their way once the notice about h has gone to those of `gs` that are other JOINED hosts. -/
def State.offersAfterTelling (s : State) (h : HostId) (n : Notice) (gs : List HostId) : PerHost (List Offer) :=
  Vector.ofFn fun g =>
    if g ∈ gs ∧ g ≠ h ∧ (s.record g).state = .joined
    then s.notice.offers.get g ++ [⟨n, some (s.record g).session⟩]
    else s.notice.offers.get g

theorem State.offersAfterTelling_nil (s : State) (h : HostId) (n : Notice) :
    s.offersAfterTelling h n [] = s.notice.offers := by
  ext i hi
  simp [State.offersAfterTelling, Vector.get_eq_getElem]

@[simp] theorem State.tellPeer_record (s : State) (h : HostId) (n : Notice) (g x : HostId) :
    (s.tellPeer h n g).record x = s.record x := by
  unfold State.tellPeer
  split <;> rfl

theorem State.tellPeer_offers_ne (s : State) (h : HostId) (n : Notice) {g x : HostId} (ne : g ≠ x) :
    (s.tellPeer h n g).notice.offers.get x = s.notice.offers.get x := by
  unfold State.tellPeer
  split
  · exact upd_get_ne _ _ ne
  · rfl

/-- A host that is told first and is not among the rest is told once. -/
theorem State.offersAfterTelling_tellPeer (s : State) (h : HostId) (n : Notice) {g : HostId} {gs : List HostId}
    (fresh : g ∉ gs) :
    (s.tellPeer h n g).offersAfterTelling h n gs = s.offersAfterTelling h n (g :: gs) := by
  unfold State.offersAfterTelling
  congr 1
  funext x
  rcases eq_or_ne g x with rfl | ne
  · by_cases peer : g ≠ h ∧ (s.record g).state = .joined
    · simp [State.tellPeer, peer, fresh]
    · simp [State.tellPeer, peer, fresh]
  · simp [State.tellPeer_offers_ne s h n ne, ne.symm]

theorem State.tellPeer_offers_only (s : State) (h : HostId) (n : Notice) (g : HostId) (o : PerHost (List Offer)) :
    { s.tellPeer h n g with notice := { (s.tellPeer h n g).notice with offers := o } }
      = { s with notice := { s.notice with offers := o } } := by
  unfold State.tellPeer
  split <;> rfl

theorem State.foldl_tellPeer (h : HostId) (n : Notice) (gs : List HostId) (distinct : gs.Nodup) (s : State) :
    gs.foldl (State.tellPeer h n) s
      = { s with notice := { s.notice with offers := s.offersAfterTelling h n gs } } := by
  induction gs generalizing s with
  | nil => rw [State.offersAfterTelling_nil]; rfl
  | cons g gs ih =>
    obtain ⟨fresh, rest⟩ := List.nodup_cons.mp distinct
    rw [List.foldl_cons, ih rest, State.offersAfterTelling_tellPeer s h n fresh, State.tellPeer_offers_only]

/-- A notice offered to the peers changes nothing but the notices on their way. -/
theorem State.offerPeers_eq (s : State) (h : HostId) (n : Notice) :
    s.offerPeers h n = { s with notice := { s.notice with offers := s.offersAfterTelling h n allHosts } } :=
  State.foldl_tellPeer h n allHosts (List.nodup_finRange 4) s

theorem State.offersAfterTelling_allHosts (s : State) (h : HostId) (n : Notice) :
    s.offersAfterTelling h n allHosts = Vector.ofFn fun g =>
      if g ≠ h ∧ (s.record g).state = .joined
      then s.notice.offers.get g ++ [⟨n, some (s.record g).session⟩]
      else s.notice.offers.get g := by
  simp only [State.offersAfterTelling, allHosts, List.mem_finRange, true_and]

/-- Whom h's peers are does not depend on h's own record. -/
theorem State.offersAfterTelling_setRecord (s : State) (h : HostId) (r : PresenceRecord) (n : Notice)
    (gs : List HostId) : (s.setRecord h r).offersAfterTelling h n gs = s.offersAfterTelling h n gs := by
  unfold State.offersAfterTelling
  congr 1
  funext g
  rcases eq_or_ne g h with rfl | ne
  · simp
  · simp [State.setRecord_record_ne s h g r ne.symm]

theorem State.offerPeers_setRecord (s : State) (h : HostId) (r : PresenceRecord) (n : Notice) :
    (s.setRecord h r).offerPeers h n = (s.offerPeers h n).setRecord h r := by
  rw [State.offerPeers_eq, State.offerPeers_eq, State.offersAfterTelling_setRecord]
  rfl

theorem State.offerPeers_announce (s : State) (h : HostId) (i : PathItem) (n : Notice) :
    (s.announce i).offerPeers h n = (s.offerPeers h n).announce i := by
  rw [State.offerPeers_eq, State.offerPeers_eq]
  rfl

/-! ## JOIN (R7) -/

theorem exec_join_of_refuse {s t : State} {h : HostId} {id : Nat} {st : Status}
    (taken : s.takePresenceCommand h .join [] = some (id, t))
    (verdict : admission (some .join) (s.record h).state = .refuse st) :
    exec (.join h) s = .next (t.reply h id st []) := by
  simp [exec, execJoin, taken, verdict]

theorem exec_join_of_pass {s t : State} {h : HostId} {id : Nat} {owner : Owner}
    (taken : s.takePresenceCommand h .join [] = some (id, t))
    (verdict : admission (some .join) (s.record h).state = .pass owner) :
    exec (.join h) s = .next (joinTaken h id t) := by
  simp [exec, execJoin, taken, verdict]

/-- Everything that the presence unit does at a JOIN it admits, in one update. -/
theorem joinTaken_eq {t : State} {h : HostId} {session term : Nat} (id : Nat)
    (session_eq : nextSession (t.record h).session = session) (term_eq : t.settings.presenceTerm = term) :
    joinTaken h id t = { t with
        presence := { t.presence with records := upd t.presence.records h ⟨.joined, session, some term, none⟩ }
        ports := upd t.ports h { t.port h with replies := (t.port h).replies ++
          [⟨id, [Status.ok.code, word h.val, word session, word term], false⟩] }
        dir := { t.dir with path := t.dir.path ++ [.join h session] }
        store := { t.store with path := t.store.path ++ [.path (.join h session)] }
        notice := { t.notice with
          path := t.notice.path ++ [.join h session]
          offers := Vector.ofFn fun g =>
            if g ≠ h ∧ (t.record g).state = .joined
            then t.notice.offers.get g ++ [⟨.peerJoined h session, some (t.record g).session⟩]
            else t.notice.offers.get g } } := by
  subst session_eq term_eq
  simp only [joinTaken, State.offerPeers_announce, State.offerPeers_setRecord]
  rw [State.offerPeers_eq, State.offersAfterTelling_allHosts]
  rfl

/-- Settles O8: a JOIN that is taken either finds a JOINED host, whose term the taking has reloaded, or is admitted. -/
theorem joinAdmitsHost : Obligations.JoinAdmitsHost := by
  unfold Obligations.JoinAdmitsHost
  intro s t h id taken
  refine ⟨fun joined => ⟨takePresenceCommand_record_of_joined taken joined, ?_⟩, fun away => ?_⟩
  · exact exec_join_of_refuse taken (by simp [admission, joined])
  · have not_joined : (s.record h).state ≠ .joined := fun joined => by simp [joined] at away
    have records := takePresenceCommand_record_of_not_joined taken not_joined
    have settings := takePresenceCommand_settings taken
    rw [exec_join_of_pass taken (if_neg not_joined),
      joinTaken_eq id (congrArg (fun r => nextSession r.session) (records h)) (congrArg (·.presenceTerm) settings)]
    simp only [records]
    rfl

/-! ## RENEW (R8) and STATUS (R9) -/

theorem exec_renew_of_refuse {s t : State} {h : HostId} {id : Nat} {st : Status}
    (taken : s.takePresenceCommand h .renew [] = some (id, t))
    (verdict : admission (some .renew) (s.record h).state = .refuse st) :
    exec (.renew h) s = .next (t.reply h id st []) := by
  simp [exec, execRenew, taken, verdict]

theorem exec_renew_of_pass {s t : State} {h : HostId} {id : Nat} {owner : Owner}
    (taken : s.takePresenceCommand h .renew [] = some (id, t))
    (verdict : admission (some .renew) (s.record h).state = .pass owner) :
    exec (.renew h) s = .next (t.reply h id .ok [word s.settings.presenceTerm]) := by
  simp [exec, execRenew, taken, verdict, takePresenceCommand_settings taken]

theorem exec_status_of_taken {s t : State} {h : HostId} {id : Nat}
    (taken : s.takePresenceCommand h .status [] = some (id, t)) :
    exec (.status h) s = .next (t.reply h id .ok (statusWords h (t.record h))) := by
  simp [exec, execStatus, taken]

/-- STATUS reports the record as it was when the command was taken, with the term that a JOINED host's taking loads. -/
theorem statusWords_of_taken {s t : State} {h : HostId} {k : CommandKind} {args : List Word} {id : Nat}
    (taken : s.takePresenceCommand h k args = some (id, t)) :
    statusWords h (t.record h) = [word h.val, word (s.record h).state.code, word (s.record h).session,
      if (s.record h).state = .joined then word s.settings.presenceTerm else 0#16, fenceWord (s.record h).fence] := by
  by_cases joined : (s.record h).state = .joined
  · simp [takePresenceCommand_record_of_joined taken joined, statusWords, joined]
  · simp [takePresenceCommand_record_of_not_joined taken joined, statusWords, joined]

theorem word_presenceState_code (st : PresenceState) :
    word st.code = match st with
      | .offline => 0#16
      | .unjoined => 1#16
      | .joined => 2#16
      | .fenced => 3#16 := by
  cases st <;> rfl

theorem fenceWord_eq (f : Option FenceCause) :
    fenceWord f = match f with
      | none => 0xFFFF#16
      | some .lapsed => 1#16
      | some .evicted => 2#16 := by
  rcases f with _ | _ | _ <;> rfl

/-- Settles O11: RENEW by R4's verdict in each state, STATUS from the record with the reload of R5. -/
theorem renewAndStatusReport : Obligations.RenewAndStatusReport := by
  unfold Obligations.RenewAndStatusReport
  refine ⟨fun s t h id taken => ⟨fun joined => ?_, fun unjoined => ?_, fun fenced => ?_⟩,
    fun s t h id taken => ⟨takePresenceCommand_record_of_joined taken, ?_⟩⟩
  · refine ⟨takePresenceCommand_record_of_joined taken joined, exec_renew_of_pass (owner := .presenceUnit) taken ?_⟩
    simp [admission, joinedOnly, joined, commandOwner]
  · exact exec_renew_of_refuse taken (by simp [admission, joinedOnly, unjoined])
  · exact exec_renew_of_refuse taken (by simp [admission, joinedOnly, fenced])
  · have words := statusWords_of_taken taken
    rw [word_presenceState_code, fenceWord_eq] at words
    exact (exec_status_of_taken taken).trans (congrArg (fun ws => Host.Outcome.next (t.reply h id .ok ws)) words)

end Sys2Proof.Machine
end

section
/-! PROOF. RELEASE, DOWNGRADE, WRITE_VALUE and QUERY at the lease directory: what a command that names a lease comes to
at a sound entry, each command's work case by case, the words in which values and entries are reported, and the
obligations about the four commands. -/

namespace Sys2Proof.Machine

open Sys2Proof

/-! ## A command at a sound entry (R27, R28) -/

theorem parseLease_of_toNat {lease : Word} {l : LeaseId} (names : lease.toNat = l.val) : parseLease lease = some l := by
  simp [parseLease, names]

/-- An argument that names a lease whose entry reads sound leads to the command's own work on the unchanged state. -/
theorem atLease_of_sound {t : State} {l : LeaseId} {lease : Word} (h : HostId) (id : Nat)
    (work : LeaseId → State → State) (names : lease.toNat = l.val) (sound : EntrySound t l) :
    atLease h id lease work t = work l t := by
  simp [atLease, parseLease_of_toNat names, readEntry_sound sound]

section
variable {s t : State} {h : HostId} {l : LeaseId} {lease : Word} {id : Nat}

theorem exec_release_of_sound (taken : s.takeDirCommand h .release [lease] = some (id, t))
    (names : lease.toNat = l.val) (sound : EntrySound t l) :
    exec (.release h lease) s = .next (releaseEntry h id l t) := by
  simp [exec, execRelease, taken, atLease_of_sound h id _ names sound]

theorem exec_downgrade_of_sound (taken : s.takeDirCommand h .downgrade [lease] = some (id, t))
    (names : lease.toNat = l.val) (sound : EntrySound t l) :
    exec (.downgrade h lease) s = .next (downgradeEntry h id l t) := by
  simp [exec, execDowngrade, taken, atLease_of_sound h id _ names sound]

theorem exec_writeValue_of_sound {hi lo : Word} (taken : s.takeDirCommand h .writeValue [lease, hi, lo] = some (id, t))
    (names : lease.toNat = l.val) (sound : EntrySound t l) :
    exec (.writeValue h lease hi lo) s = .next (writeValueEntry h id hi lo l t) := by
  simp [exec, execWriteValue, taken, atLease_of_sound h id _ names sound]

theorem exec_query_of_sound (taken : s.takeDirCommand h .query [lease] = some (id, t))
    (names : lease.toNat = l.val) (sound : EntrySound t l) :
    exec (.query h lease) s = .next (t.reply h id .ok (queryWords (t.entry l))) := by
  simp [exec, execQuery, queryEntry, taken, atLease_of_sound h id _ names sound]

end

/-! ## A shared holder dropped (R35) -/

section
variable {t : State} {h : HostId} {l : LeaseId}

theorem dropHolder_of_no_upgrade (other : (t.entry l).upgrade ≠ some h) :
    dropHolder l h t = grantScan l (t.putEntry l { t.entry l with
      state := if HostSet.erase (t.entry l).holders h = 0#4 then .free else (t.entry l).state
      holders := HostSet.erase (t.entry l).holders h }) := by
  simp [dropHolder, other]

theorem dropHolder_of_upgrade (own : (t.entry l).upgrade = some h) :
    dropHolder l h t = grantScan l ((t.setWait h none).putEntry l { t.entry l with
      state := if HostSet.erase (t.entry l).holders h = 0#4 then .free else (t.entry l).state
      holders := HostSet.erase (t.entry l).holders h
      upgrade := none }) := by
  simp [dropHolder, own]

end

/-! ## RELEASE (R34, R35, R36) -/

/-- The reply to a RELEASE that gives up a hold, after the scan: the lease as the scan left it, and how many hosts the
scan admitted. -/
def replyReleased (h : HostId) (id : Nat) (l : LeaseId) (scanned : State × Nat) : State :=
  scanned.1.reply h id .ok
    [word (scanned.1.entry l).state.code, (scanned.1.entry l).generation, word scanned.2]

section
variable {t : State} {h : HostId} {l : LeaseId} (id : Nat)

theorem releaseEntry_of_transit (acts : (t.entry l).acts h = true) (transit : (t.entry l).transit ≠ none) :
    releaseEntry h id l t = t.reply h id .inTransit [] := by
  simp [releaseEntry, acts, Option.isSome_iff_ne_none.mpr transit]

theorem releaseEntry_of_acts (acts : (t.entry l).acts h = true) (here : (t.entry l).transit = none) :
    releaseEntry h id l t
      = replyReleased h id l (grantScan l (t.putEntry l { t.entry l with state := .free, owner := none })) := by
  simp [releaseEntry, replyReleased, acts, here]

theorem releaseEntry_of_holder (acts : (t.entry l).acts h = false) (holds : HostSet.has (t.entry l).holders h = true) :
    releaseEntry h id l t = replyReleased h id l (dropHolder l h t) := by
  simp [releaseEntry, replyReleased, acts, holds]

theorem releaseEntry_of_stranger (acts : (t.entry l).acts h = false)
    (holds : HostSet.has (t.entry l).holders h = false) : releaseEntry h id l t = t.reply h id .notHolder [] := by
  simp [releaseEntry, acts, holds]

end

/-- Settles O16: at a sound entry RELEASE comes to one case of its work, and a shared holder's to one of two drops. -/
theorem releaseGivesUpHold : Obligations.ReleaseGivesUpHold := by
  unfold Obligations.ReleaseGivesUpHold
  intro s t h l lease id taken names sound
  dsimp only
  rw [exec_release_of_sound taken names sound]
  refine ⟨fun acts transit => ?_, fun acts here => ?_, fun acts holds other => ?_, fun acts holds own => ?_,
    fun acts holds => ?_⟩
  · rw [releaseEntry_of_transit id acts transit]
  · rw [releaseEntry_of_acts id acts here]; rfl
  · rw [releaseEntry_of_holder id acts holds, dropHolder_of_no_upgrade other]; rfl
  · rw [releaseEntry_of_holder id acts holds, dropHolder_of_upgrade own]; rfl
  · rw [releaseEntry_of_stranger id acts holds]

/-! ## A lease's value in two words (R23) -/

theorem joinWords_toNat (hi lo : Word) : (joinWords hi lo).toNat = hi.toNat * 65536 + lo.toNat := by
  have low : lo.toNat < 2 ^ 16 := lo.isLt
  rw [joinWords, BitVec.toNat_append, ← Nat.shiftLeft_add_eq_or_of_lt low, Nat.shiftLeft_eq]

/-- The two words in which a value is reported make up the value. -/
theorem toNat_eq_highWord_lowWord (v : BitVec 32) : v.toNat = (highWord v).toNat * 65536 + (lowWord v).toNat := by
  have : v.toNat < 2 ^ 32 := v.isLt
  simp only [highWord, lowWord, BitVec.extractLsb'_toNat, Nat.shiftRight_eq_div_pow]
  omega

/-! ## DOWNGRADE (R38) and WRITE_VALUE (R39) -/

section
variable {t : State} {h : HostId} {l : LeaseId} (id : Nat) (hi lo : Word)

theorem downgradeEntry_of_not_acts (acts : (t.entry l).acts h = false) :
    downgradeEntry h id l t = t.reply h id .notHolder [] := by
  simp [downgradeEntry, acts]

theorem downgradeEntry_of_transit (acts : (t.entry l).acts h = true) (transit : (t.entry l).transit ≠ none) :
    downgradeEntry h id l t = t.reply h id .inTransit [] := by
  simp [downgradeEntry, acts, Option.isSome_iff_ne_none.mpr transit]

theorem downgradeEntry_of_acts (acts : (t.entry l).acts h = true) (here : (t.entry l).transit = none) :
    let scanned := grantScan l
      (t.putEntry l { t.entry l with state := .shared, owner := none, holders := HostSet.single h })
    downgradeEntry h id l t = scanned.1.reply h id .ok [(t.entry l).generation, word scanned.2] := by
  simp [downgradeEntry, acts, here]

theorem writeValueEntry_of_not_acts (acts : (t.entry l).acts h = false) :
    writeValueEntry h id hi lo l t = t.reply h id .notHolder [] := by
  simp [writeValueEntry, acts]

theorem writeValueEntry_of_transit (acts : (t.entry l).acts h = true) (transit : (t.entry l).transit ≠ none) :
    writeValueEntry h id hi lo l t = t.reply h id .inTransit [] := by
  simp [writeValueEntry, acts, Option.isSome_iff_ne_none.mpr transit]

theorem writeValueEntry_of_acts (acts : (t.entry l).acts h = true) (here : (t.entry l).transit = none) :
    writeValueEntry h id hi lo l t
      = (t.putEntry l { t.entry l with value := joinWords hi lo }).reply h id .ok [(t.entry l).generation] := by
  simp [writeValueEntry, acts, here]

end

/-- Settles O18: both commands case by case at a sound entry; the value written is the two words joined. -/
theorem downgradeAndWriteValue : Obligations.DowngradeAndWriteValue := by
  unfold Obligations.DowngradeAndWriteValue
  intro s t h l lease hi lo id names sound
  refine ⟨fun taken => ?_, fun taken => ?_⟩
  · rw [exec_downgrade_of_sound taken names sound]
    refine ⟨fun acts => ?_, fun acts transit => ?_, fun acts here => ?_⟩
    · rw [downgradeEntry_of_not_acts id acts]
    · rw [downgradeEntry_of_transit id acts transit]
    · rw [downgradeEntry_of_acts id acts here]
  · rw [exec_writeValue_of_sound taken names sound]
    refine ⟨fun acts => ?_, fun acts transit => ?_,
      fun acts here => ⟨joinWords hi lo, joinWords_toNat hi lo, ?_⟩⟩
    · rw [writeValueEntry_of_not_acts id hi lo acts]
    · rw [writeValueEntry_of_transit id hi lo acts transit]
    · rw [writeValueEntry_of_acts id hi lo acts here]

/-! ## The fields of a word -/

/-- A field of a word that holds a number is the number shifted down to the field, within the field's width. -/
theorem word_extractLsb' {n start len : Nat} {x : BitVec len} (fits : start + len ≤ 16)
    (digits : n / 2 ^ start % 2 ^ len = x.toNat) : (word n).extractLsb' start len = x := by
  have field : (word n).extractLsb' start len = BitVec.ofNat len (n / 2 ^ start) := by
    apply BitVec.eq_of_getLsbD_eq
    intro i inField
    have inWord : start + i < 16 := by omega
    simp only [word, BitVec.getLsbD_extractLsb', BitVec.getLsbD_ofNat, ← Nat.shiftRight_eq_div_pow,
      Nat.testBit_shiftRight, inField, inWord, decide_true, Bool.true_and]
  exact BitVec.eq_of_toNat_eq (by rw [field, BitVec.toNat_ofNat, digits])

theorem word_getLsbD {n i : Nat} {b : Bool} (inWord : i < 16) (digit : n / 2 ^ i % 2 = b.toNat) :
    (word n).getLsbD i = b := by
  simp only [word, BitVec.getLsbD_ofNat, Nat.testBit_eq_decide_div_mod_eq, inWord, digit, decide_true, Bool.true_and,
    Bool.toNat_eq_one, Bool.decide_eq_true]

/-! ## QUERY (R40) -/

theorem LeaseState.code_lt (st : LeaseState) : st.code < 4 := by
  cases st <;> decide

theorem causeCode_lt (c : Option StrandedCause) : causeCode c < 4 := by
  rcases c with _ | _ | _ | _ <;> decide

/-- The number in QUERY's summary word, its two flags as digits. -/
def summaryNumber (e : LeaseEntry) : Nat :=
  e.state.code + 4 * causeCode e.cause + 16 * e.holders.toNat + 256 * e.waiters.length
    + 2048 * e.transit.isSome.toNat + 4096 * (e.transit.isSome && e.ownerPresent).toNat

theorem summaryWord_eq (e : LeaseEntry) : summaryWord e = word (summaryNumber e) := by
  unfold summaryWord summaryNumber
  cases e.transit.isSome <;> cases e.ownerPresent <;> rfl

/-- Below stand the codes of the state and of the cause. -/
theorem summaryNumber_mod_16 (e : LeaseEntry) :
    summaryNumber e % 16 = e.state.code + 4 * causeCode e.cause := by
  have := e.state.code_lt
  have := causeCode_lt e.cause
  unfold summaryNumber
  omega

/-- Above them stand the holders, the number of waiters and the two flags. -/
theorem summaryNumber_div_16 (e : LeaseEntry) : summaryNumber e / 16 = e.holders.toNat + 16 * (e.waiters.length
    + 8 * (e.transit.isSome.toNat + 2 * (e.transit.isSome && e.ownerPresent).toNat)) := by
  have := e.state.code_lt
  have := causeCode_lt e.cause
  unfold summaryNumber
  omega

/-- QUERY's summary word bit by bit, for a waiter list whose length fits its field. -/
theorem summaryWord_fields (e : LeaseEntry) (short : e.waiters.length < 8) :
    (summaryWord e).extractLsb' 0 2 = BitVec.ofNat 2 e.state.code
      ∧ (summaryWord e).extractLsb' 2 2 = BitVec.ofNat 2 (causeCode e.cause)
      ∧ (summaryWord e).extractLsb' 4 4 = e.holders
      ∧ (summaryWord e).extractLsb' 8 3 = BitVec.ofNat 3 e.waiters.length
      ∧ (summaryWord e).getLsbD 11 = e.transit.isSome
      ∧ (summaryWord e).getLsbD 12 = (e.transit.isSome && e.ownerPresent)
      ∧ (summaryWord e).extractLsb' 13 3 = 0#3 := by
  have codes := summaryNumber_mod_16 e
  have := e.state.code_lt
  have := causeCode_lt e.cause
  have middle := summaryNumber_div_16 e
  have := e.holders.isLt
  have := e.transit.isSome.toNat_lt
  have := (e.transit.isSome && e.ownerPresent).toNat_lt
  rw [summaryWord_eq]
  refine ⟨word_extractLsb' (by decide) ?_, word_extractLsb' (by decide) ?_, word_extractLsb' (by decide) ?_,
    word_extractLsb' (by decide) ?_, word_getLsbD (by decide) ?_, word_getLsbD (by decide) ?_,
    word_extractLsb' (by decide) ?_⟩
  case refine_1 | refine_2 | refine_4 | refine_7 => rw [BitVec.toNat_ofNat]; omega
  all_goals omega

/-- Settles O19: the words are those of `queryWords`; the summary word's fields and the value are as said above. -/
theorem queryReportsEntry : Obligations.QueryReportsEntry := by
  unfold Obligations.QueryReportsEntry
  intro s t h l lease id taken names sound e short
  obtain ⟨state, cause, holders, waiters, transit, present, rest⟩ := summaryWord_fields e (by omega)
  exact ⟨summaryWord e, highWord e.value, lowWord e.value, exec_query_of_sound taken names sound,
    state, cause, holders, waiters, transit, present, rest, toNat_eq_highWord_lowWord e.value⟩

end Sys2Proof.Machine
end

section
/-! PROOF. The grant scan row by row and UPGRADE case by case: what emptying the wait records of several hosts and
offering one notice to each comes to, one equation for each row of the scan's table and for each check of UPGRADE, and
the obligations about the two. -/

namespace Sys2Proof.Machine

open Sys2Proof

/-! ## Several hosts granted with one notice (R56, R58) -/

@[simp] theorem State.offerDir_dir (s : State) (h : HostId) (n : Notice) : (s.offerDir h n).dir = s.dir := rfl

@[simp] theorem State.offerDir_offers (s : State) (h : HostId) (n : Notice) : (s.offerDir h n).notice.offers
    = upd s.notice.offers h (s.notice.offers.get h ++ [⟨n, s.dirSession h⟩]) := rfl

@[simp] theorem State.setWait_dirSession (s : State) (h g : HostId) (r : Option WaitRecord) :
    (s.setWait h r).dirSession g = s.dirSession g := rfl

/-- The wait records of `gs` emptied, and the notice offered to each of them. -/
def State.grantAll (s : State) (n : Notice) (gs : List HostId) : State :=
  { s with
    dir := { s.dir with waits := Vector.ofFn fun g => if g ∈ gs then none else s.wait g }
    notice := { s.notice with
      offers := Vector.ofFn fun g => s.notice.offers.get g ++ if g ∈ gs then [⟨n, s.dirSession g⟩] else [] } }

theorem State.grantAll_nil (s : State) (n : Notice) : s.grantAll n [] = s := by
  have waits : Vector.ofFn s.wait = s.dir.waits := by
    ext i hi
    simp [State.wait, Vector.get_eq_getElem]
  have offers : Vector.ofFn s.notice.offers.get = s.notice.offers := by
    ext1 i hi
    simp [Vector.get_eq_getElem]
  simp [State.grantAll, waits, offers]

theorem State.waits_of_granted (s : State) (n : Notice) (g : HostId) (gs : List HostId) :
    (Vector.ofFn fun x => if x ∈ gs then none else ((s.setWait g none).offerDir g n).wait x)
      = Vector.ofFn fun x => if x ∈ g :: gs then none else s.wait x := by
  congr 1
  funext x
  rcases eq_or_ne g x with rfl | ne
  · simp [State.wait]
  · simp [State.wait, upd_get_ne _ _ ne, ne.symm]

/-- A host that is granted first and is not among the rest is offered the notice once. -/
theorem State.offers_of_granted (s : State) (n : Notice) {g : HostId} {gs : List HostId} (fresh : g ∉ gs) :
    (Vector.ofFn fun x => ((s.setWait g none).offerDir g n).notice.offers.get x
        ++ if x ∈ gs then [⟨n, s.dirSession x⟩] else [])
      = Vector.ofFn fun x => s.notice.offers.get x ++ if x ∈ g :: gs then [⟨n, s.dirSession x⟩] else [] := by
  congr 1
  funext x
  rcases eq_or_ne g x with rfl | ne
  · simp [fresh]
  · simp [upd_get_ne _ _ ne, ne.symm]

theorem State.grantAll_cons (s : State) (n : Notice) {g : HostId} {gs : List HostId} (fresh : g ∉ gs) :
    ((s.setWait g none).offerDir g n).grantAll n gs = s.grantAll n (g :: gs) := by
  unfold State.grantAll
  rw [State.waits_of_granted, ← State.offers_of_granted s n fresh]
  rfl

/-- Distinct hosts granted one after the other are all granted with the notice of the lease's present generation. -/
theorem foldl_grantSharedHost (l : LeaseId) (run : List (HostId × LeaseMode)) (distinct : (run.map Prod.fst).Nodup)
    (s : State) :
    run.foldl (grantSharedHost l) s = s.grantAll (.granted l .shared (s.entry l).generation) (run.map Prod.fst) := by
  induction run generalizing s with
  | nil => exact (State.grantAll_nil s _).symm
  | cons w run ih =>
    obtain ⟨fresh, rest⟩ := List.nodup_cons.mp distinct
    exact (ih rest (grantSharedHost l s w)).trans (State.grantAll_cons s _ fresh)

/-! ## The rows of the grant scan's table (R56) -/

section
variable {l : LeaseId} {s : State}

theorem grantScan_of_sole_holder {u : HostId} (pending : (s.entry l).upgrade = some u)
    (state : (s.entry l).state = .shared) (sole : (s.entry l).holders = HostSet.single u) :
    grantScan l s = (completeUpgrade l u s, 1) := by
  simp [grantScan, pending, state, sole]

theorem grantScan_of_other_holders {u : HostId} (pending : (s.entry l).upgrade = some u)
    (others : (s.entry l).holders ≠ HostSet.single u) : grantScan l s = (s, 0) := by
  simp [grantScan, pending, others]

theorem grantScan_of_exclusive_head {h : HostId} {rest : List (HostId × LeaseMode)}
    (no_upgrade : (s.entry l).upgrade = none) (free : (s.entry l).state = .free)
    (waiters : (s.entry l).waiters = (h, .exclusive) :: rest) :
    grantScan l s = (grantExclusive l h rest s, 1) := by
  simp [grantScan, no_upgrade, free, waiters]

theorem grantScan_of_shared_head {h : HostId} {rest : List (HostId × LeaseMode)}
    (no_upgrade : (s.entry l).upgrade = none) (state : (s.entry l).state = .free ∨ (s.entry l).state = .shared)
    (waiters : (s.entry l).waiters = (h, .shared) :: rest) : grantScan l s = grantSharedRun l s := by
  rcases state with state | state <;> simp [grantScan, no_upgrade, state, waiters]

theorem grantScan_of_no_waiters (no_upgrade : (s.entry l).upgrade = none) (waiters : (s.entry l).waiters = []) :
    grantScan l s = (s, 0) := by
  simp [grantScan, no_upgrade, waiters]

theorem grantScan_of_exclusive_head_shared {h : HostId} {rest : List (HostId × LeaseMode)}
    (no_upgrade : (s.entry l).upgrade = none) (shared : (s.entry l).state = .shared)
    (waiters : (s.entry l).waiters = (h, .exclusive) :: rest) : grantScan l s = (s, 0) := by
  simp [grantScan, no_upgrade, shared, waiters]

end

/-- What is left after a run is taken off by its length is what is left when the run itself is dropped. -/
theorem drop_length_takeWhile {α : Type} (p : α → Bool) (xs : List α) :
    xs.drop (xs.takeWhile p).length = xs.dropWhile p := by
  calc xs.drop (xs.takeWhile p).length
    _ = (xs.takeWhile p ++ xs.dropWhile p).drop (xs.takeWhile p).length := by rw [List.takeWhile_append_dropWhile]
    _ = xs.dropWhile p := List.drop_left

/-- The shared run at the head, of waiters that are distinct hosts, is granted in one update. -/
theorem grantSharedRun_eq (l : LeaseId) (s : State) (distinct : ((s.entry l).waiters.map Prod.fst).Nodup) :
    let run := (s.entry l).waiters.takeWhile isSharedWaiter
    grantSharedRun l s = ((s.putEntry l { s.entry l with
      state := .shared
      holders := run.foldl (fun x w => HostSet.insert x w.1) (s.entry l).holders
      waiters := (s.entry l).waiters.drop run.length }).grantAll
        (.granted l .shared (s.entry l).generation) (run.map Prod.fst), run.length) := by
  have run_distinct := distinct.sublist ((List.takeWhile_sublist isSharedWaiter).map Prod.fst)
  simp only [grantSharedRun, drop_length_takeWhile, foldl_grantSharedHost l _ run_distinct,
    State.putEntry_entry_same]

/-- Settles O17: the rows of the table one by one; the granting of a shared run is `grantSharedRun_eq`. -/
theorem grantScanTable : Obligations.GrantScanTable := by
  unfold Obligations.GrantScanTable
  intro s l
  dsimp only
  refine ⟨fun u pending => ⟨fun state sole => ?_, fun others => ?_⟩,
    fun no_upgrade => ⟨fun h rest free waiters => ?_, fun h rest state waiters distinct => ?_, ?_⟩⟩
  · rw [grantScan_of_sole_holder pending state sole]; rfl
  · exact grantScan_of_other_holders pending others
  · rw [grantScan_of_exclusive_head no_upgrade free waiters]; rfl
  · exact ⟨_, (grantScan_of_shared_head no_upgrade state waiters).trans (grantSharedRun_eq l s distinct), rfl⟩
  · rintro (waiters | exclusive | stranded | ⟨shared, h, rest, waiters⟩)
    · exact grantScan_of_no_waiters no_upgrade waiters
    · exact grantScan_exclusive exclusive
    · exact grantScan_stranded stranded
    · exact grantScan_of_exclusive_head_shared no_upgrade shared waiters

/-! ## Argument words reported back -/

theorem word_of_toNat {w : Word} {n : Nat} (e : w.toNat = n) : word n = w := by
  rw [word, ← e, BitVec.ofNat_toNat, BitVec.setWidth_eq]

/-- The deadline that a wait argument loads is reported as that argument. -/
theorem deadlineWord_parseDeadline (wait : Word) : deadlineWord (parseDeadline wait) = wait := by
  unfold parseDeadline
  split
  · next none => exact (word_of_toNat none : word 65535 = wait)
  · exact word_of_toNat rfl

/-! ## UPGRADE (R49, R50, R51) -/

theorem exec_upgrade_of_sound {s t : State} {h : HostId} {l : LeaseId} {lease wait : Word} {id : Nat}
    (taken : s.takeDirCommand h .upgrade [lease, wait] = some (id, t)) (names : lease.toNat = l.val)
    (sound : EntrySound t l) : exec (.upgrade h lease wait) s = .next (upgradeEntry h id wait l t) := by
  simp [exec, execUpgrade, taken, atLease_of_sound h id _ names sound]

section
variable {t : State} {h : HostId} {l : LeaseId} (id : Nat) {lease : Word} (wait : Word)

theorem upgradeEntry_of_sentAway (away : (t.entry l).sentAway h = true) :
    upgradeEntry h id wait l t = t.reply h id .inTransit [] := by
  simp [upgradeEntry, away]

theorem upgradeEntry_of_acts (away : (t.entry l).sentAway h = false) (acts : (t.entry l).acts h = true) :
    upgradeEntry h id wait l t = t.reply h id .held [] := by
  simp [upgradeEntry, away, acts]

theorem upgradeEntry_of_stranger (away : (t.entry l).sentAway h = false) (acts : (t.entry l).acts h = false)
    (holds : HostSet.has (t.entry l).holders h = false) :
    upgradeEntry h id wait l t = t.reply h id .notHolder [] := by
  simp [upgradeEntry, away, acts, holds]

theorem upgradeEntry_of_sole_holder (names : lease.toNat = l.val) (away : (t.entry l).sentAway h = false)
    (acts : (t.entry l).acts h = false) (holds : HostSet.has (t.entry l).holders h = true)
    (sole : (t.entry l).holders = HostSet.single h) :
    upgradeEntry h id wait l t = (t.putEntry l ((t.entry l).enterExclusive h)).reply h id .ok
      [lease, 2#16, (t.entry l).generation + 1#16] := by
  rw [← word_of_toNat names]
  simp only [upgradeEntry, away, acts, holds, if_pos sole, if_false, Bool.not_true, Bool.false_eq_true]
  rfl

end

/-! A shared holder beside others: another host's pending upgrade, no wait asked for, a wait elsewhere, or the
upgrade made pending. -/

theorem upgrade_slot_taken {e : LeaseEntry} {h u : HostId} (pending : e.upgrade = some u) (ne : u ≠ h) :
    (e.upgrade.filter fun u => u ≠ h) = some u := by
  simp [pending, Option.filter, ne]

/-- The slot of a pending upgrade is open to a host when it is empty or already its own. -/
theorem upgrade_slot_open {e : LeaseEntry} {h : HostId} (own : e.upgrade = none ∨ e.upgrade = some h) :
    (e.upgrade.filter fun u => u ≠ h) = none := by
  rcases own with empty | mine
  · simp [empty]
  · simp [mine]

section
variable {t : State} {h : HostId} {l : LeaseId} (id : Nat) {lease wait : Word}
  (away : (t.entry l).sentAway h = false) (acts : (t.entry l).acts h = false)
  (holds : HostSet.has (t.entry l).holders h = true) (others : (t.entry l).holders ≠ HostSet.single h)
include away acts holds others

theorem upgradeEntry_of_other_upgrade {u : HostId}
    (slot : ((t.entry l).upgrade.filter fun u => u ≠ h) = some u) :
    upgradeEntry h id wait l t = t.reply h id .conflict [word u.val] := by
  simp only [upgradeEntry, away, acts, holds, others, slot, if_false, Bool.not_true, Bool.false_eq_true]

variable (slot : ((t.entry l).upgrade.filter fun u => u ≠ h) = none)
include slot

theorem upgradeEntry_of_no_wait (at_once : wait = 0#16) : upgradeEntry h id wait l t
    = t.reply h id .busy [word (HostSet.size (HostSet.erase (t.entry l).holders h)), (t.entry l).generation] := by
  simp only [upgradeEntry, away, acts, holds, others, slot, at_once, if_true, if_false, Bool.not_true,
    Bool.false_eq_true]

theorem upgradeEntry_of_waiting (waits : wait ≠ 0#16) (waiting : t.wait h ≠ none) :
    upgradeEntry h id wait l t = t.reply h id .waiting [] := by
  simp only [upgradeEntry, away, acts, holds, others, slot, waits, Option.isSome_iff_ne_none.mpr waiting, if_true,
    if_false, Bool.not_true, Bool.false_eq_true]

theorem upgradeEntry_of_queued (names : lease.toNat = l.val) (waits : wait ≠ 0#16) (idle : t.wait h = none) :
    upgradeEntry h id wait l t
      = ((t.putEntry l { t.entry l with upgrade := some h }).setWait h
          (some ⟨l, .upgrade, parseDeadline wait⟩)).reply h id .queued
        [lease, 3#16, word (HostSet.size (HostSet.erase (t.entry l).holders h)), word (t.entry l).state.code,
          (t.entry l).generation, wait] := by
  rw [← word_of_toNat names]
  simp only [upgradeEntry, away, acts, holds, others, slot, waits, idle, deadlineWord_parseDeadline, if_false,
    Option.isSome_none, Bool.not_true, Bool.false_eq_true]
  rfl

end

/-- Settles O20: at a sound entry UPGRADE comes to one case of its work, check by check. -/
theorem upgradeChecksAndEffect : Obligations.UpgradeChecksAndEffect := by
  unfold Obligations.UpgradeChecksAndEffect
  intro s t h l lease wait id taken names sound
  dsimp only
  rw [exec_upgrade_of_sound taken names sound]
  refine ⟨fun away => ?_, fun away acts => ?_, fun away acts holds => ?_, fun away acts holds =>
    ⟨fun sole => ?_, fun others => ⟨fun u pending ne => ?_, fun own => ?_⟩⟩⟩
  · rw [upgradeEntry_of_sentAway id wait away]
  · rw [upgradeEntry_of_acts id wait away acts]
  · rw [upgradeEntry_of_stranger id wait away acts holds]
  · rw [upgradeEntry_of_sole_holder id wait names away acts holds sole]; rfl
  · rw [upgradeEntry_of_other_upgrade id away acts holds others (upgrade_slot_taken pending ne)]
  · have slot := upgrade_slot_open own
    refine ⟨fun at_once => ?_, fun waits waiting => ?_, fun waits idle => ?_⟩
    · rw [upgradeEntry_of_no_wait id away acts holds others slot at_once]
    · rw [upgradeEntry_of_waiting id away acts holds others slot waits waiting]
    · rw [upgradeEntry_of_queued id away acts holds others slot names waits idle]; rfl

end Sys2Proof.Machine
end

section
/-! PROOF. SPACE_WAIT at the message store: the quota and pool tests and the count of FREE descriptors as propositions,
one equation for each step of R93, and the obligation about the command. -/

namespace Sys2Proof.Machine

open Sys2Proof

/-! ## The tests of a space request (R87) -/

theorem readForCount_of_storeSound {s : State} (sound : StoreSound s) : readForCount s = s :=
  readForCount_sound sound.2 sound.1

theorem quotaTest_iff (h : HostId) (n : Nat) (s : State) :
    quotaTest h n s = true ↔ descUsage h s + 1 ≤ s.store.descQuota ∧ cellUsage h s + n ≤ s.store.cellQuota := by
  simp [quotaTest]

theorem poolTest_iff (n : Nat) (s : State) : poolTest n s = true ↔ 1 ≤ freeDescs s ∧ n ≤ freeCells s := by
  simp [poolTest]

theorem fits_iff (h : HostId) (n : Nat) (s : State) : fits h n s = true ↔
    (descUsage h s + 1 ≤ s.store.descQuota ∧ cellUsage h s + n ≤ s.store.cellQuota)
      ∧ (1 ≤ freeDescs s ∧ n ≤ freeCells s) := by
  rw [fits, Bool.and_eq_true, quotaTest_iff, poolTest_iff]

theorem exists_lowestFree {s : State} (some_free : 1 ≤ freeDescs s) : ∃ d, lowestFree s = some d := by
  obtain ⟨d, mem, free⟩ := List.countP_pos_iff.mp (show 0 < freeDescs s from some_free)
  exact Option.isSome_iff_exists.mp (List.find?_isSome.mpr ⟨d, mem, free⟩)

/-! ## SPACE_WAIT (R93, R94) -/

theorem exec_spaceWait_of_taken {s t : State} {h : HostId} {cells wait : Word} {id : Nat}
    (taken : s.takeStoreCommand h .spaceWait [cells, wait] = some (id, t)) :
    exec (.spaceWait h cells wait) s = .next (spaceWaitTaken h id cells wait t) := by
  simp [exec, execSpaceWait, taken]

theorem spaceGranted_eq {s : State} {h : HostId} {cells : Word} {d : DescId} (id : Nat) (lowest : lowestFree s = some d) :
    spaceGranted h id cells.toNat s
      = (grantSpace h cells.toNat s).reply h id .ok [word d.val, cells, word s.settings.spaceHold] := by
  simp [spaceGranted, lowest, word_of_toNat (w := cells) rfl]

theorem spaceQueued_eq (h : HostId) (id : Nat) (cells wait : Word) (s : State) :
    spaceQueued h id cells.toNat wait s = ({ s with store := { s.store with
        spaceList := s.store.spaceList ++ [h]
        space := upd s.store.space h (.waiting cells.toNat (parseDeadline wait)) } }).reply h id .queued
      [word (s.store.spaceList.length + 1), cells, wait] := by
  simp [spaceQueued, State.setSpace, word_of_toNat (w := cells) rfl, deadlineWord_parseDeadline]

section
variable {t : State} {h : HostId} {cells : Word} (id : Nat) (wait : Word)

theorem spaceWaitTaken_of_tooMany (many : Config.maxCells < cells.toNat) :
    spaceWaitTaken h id cells wait t = t.reply h id .badArg [] := if_pos many

variable (few : cells.toNat ≤ Config.maxCells)
include few

theorem spaceWaitTaken_of_record (occupied : t.space h ≠ .empty) :
    spaceWaitTaken h id cells wait t = t.reply h id .waiting [] := by
  rw [spaceWaitTaken, if_neg few.not_gt, if_pos occupied]

variable (idle : t.space h = .empty)
include idle

theorem spaceWaitTaken_of_overQuota (sound : StoreSound t) (exceeds : t.store.cellQuota < cells.toNat) :
    spaceWaitTaken h id cells wait t = replyQuota h id t := by
  rw [spaceWaitTaken, if_neg few.not_gt, if_neg (not_not.mpr idle),
    if_pos exceeds, readForCount_of_storeSound sound]

variable (within : cells.toNat ≤ t.store.cellQuota)
include within

/-- A request within CELL_QUOTA from a host with an empty record comes to steps 4 to 6 of R93. -/
theorem spaceWaitTaken_of_withinQuota (sound : StoreSound t) :
    spaceWaitTaken h id cells wait t =
      if t.store.spaceList = [] ∧ fits h cells.toNat t = true then spaceGranted h id cells.toNat t
      else if wait = 0#16 then
        (if quotaTest h cells.toNat t then replyNoSpace h id t else replyQuota h id t)
      else spaceQueued h id cells.toNat wait t := by
  rw [spaceWaitTaken, if_neg few.not_gt, if_neg (not_not.mpr idle),
    if_neg within.not_gt]
  simp only [readForCount_of_storeSound sound]
  by_cases nobody : t.store.spaceList = [] <;> simp [nobody]

end

/-- Settles O27: the first three checks one by one; within CELL_QUOTA, the grant when the list is empty and the request
fits, else the refusal or the wait. -/
theorem spaceWaitDecision : Obligations.SpaceWaitDecision := by
  unfold Obligations.SpaceWaitDecision
  intro s t h cells wait id taken sound
  dsimp only
  rw [exec_spaceWait_of_taken taken]
  refine ⟨fun many => ?_, fun few occupied => ?_, fun few idle =>
    ⟨fun exceeds => ?_, fun within => ⟨fun nobody quotaOk poolOk => ?_, fun held => ?_⟩⟩⟩
  · rw [spaceWaitTaken_of_tooMany id wait many]
  · rw [spaceWaitTaken_of_record id wait few occupied]
  · rw [spaceWaitTaken_of_overQuota id wait few idle sound exceeds]; rfl
  · obtain ⟨d, lowest⟩ := exists_lowestFree poolOk.1
    refine ⟨d, lowest, ?_⟩
    rw [spaceWaitTaken_of_withinQuota id wait few idle within sound,
      if_pos ⟨nobody, (fits_iff ..).mpr ⟨quotaOk, poolOk⟩⟩, spaceGranted_eq id lowest]
  · have not_granted : ¬ (t.store.spaceList = [] ∧ fits h cells.toNat t = true) := by
      rw [fits_iff]
      tauto
    rw [spaceWaitTaken_of_withinQuota id wait few idle within sound, if_neg not_granted]
    refine ⟨fun at_once noQuota => ?_, fun at_once quotaOk => ?_, fun waits => ?_⟩
    · rw [if_pos at_once, if_neg (mt (quotaTest_iff ..).mp noQuota)]; rfl
    · rw [if_pos at_once, if_pos ((quotaTest_iff ..).mpr quotaOk)]; rfl
    · rw [if_neg waits, spaceQueued_eq]; rfl

end Sys2Proof.Machine
end

section
/-! PROOF. ABANDON and UNWIND at the message store: what freeing a descriptor, a finding of the store and the loss of a
descriptor come to, each said once, then the two commands case by case, and the obligation about them. -/

namespace Sys2Proof.Machine

open Sys2Proof

/-! ## What a fold of steps leaves alone -/

theorem foldl_keeps {α β : Type} (view : State → β) {f : State → α → State} (step : ∀ s x, view (f s x) = view s)
    (xs : List α) (s : State) : view (xs.foldl f s) = view s := by
  induction xs generalizing s with
  | nil => rfl
  | cons x xs ih => exact (ih (f s x)).trans (step s x)

theorem rebuildEntry_store (l : LeaseId) (s : State) : (rebuildEntry l s).store = s.store := by
  refine foldl_keeps State.store (fun s h => ?_) allHosts (s.putEntry l LeaseEntry.rebuilt)
  split
  · split <;> rfl
  · rfl

theorem dirFinding_store (s : State) (l : LeaseId) : (s.dirFinding l).store = s.store := by
  refine foldl_keeps State.store (fun s g => ?_) allHosts s.raiseUncorrected
  split <;> rfl

theorem readEntry_store (l : LeaseId) (s : State) : (readEntry l s).2.store = s.store := by
  rcases readEntry_cases l s with ⟨-, r⟩ | ⟨-, r⟩ | ⟨-, r⟩
  · rw [r]
  · rw [r]; rfl
  · rw [r, dirFinding_store, rebuildEntry_store]

theorem strandEntry_store (l : LeaseId) (cause : StrandedCause) (s : State) :
    (strandEntry l cause s).store = s.store := by
  unfold strandEntry offerStranded
  exact foldl_keeps State.store (fun s (w : HostId × LeaseMode) => State.offer_store s w.1 _ _) _ _

theorem failEntry_store (l : LeaseId) (s : State) : (failEntry l s).2.store = s.store := by
  unfold failEntry
  dsimp only
  split
  · rfl
  · exact strandEntry_store l .handoff s

/-! ## The findings of the store (R157) -/

/-- One step of `State.storeFinding`: the notice goes to g when the store counts g JOINED. -/
def State.tellJoined (n : Notice) (s : State) (g : HostId) : State :=
  if (s.store.joined.get g).isSome then s.offerStore g n else s

/-- The offer of a notice that the store makes to host x, when it counts x JOINED. -/
def State.joinedOffer (s : State) (n : Notice) (x : HostId) : List Offer :=
  if (s.store.joined.get x).isSome = true then [⟨n, s.store.joined.get x⟩] else []

/-- The state with the notices on their way replaced. -/
def State.withOffers (s : State) (o : PerHost (List Offer)) : State := { s with notice := { s.notice with offers := o } }

theorem State.withOffers_withOffers (s : State) (o p : PerHost (List Offer)) :
    (s.withOffers o).withOffers p = s.withOffers p := rfl

@[simp] theorem State.withOffers_offers (s : State) (o : PerHost (List Offer)) : (s.withOffers o).notice.offers = o := rfl

@[simp] theorem State.withOffers_joinedOffer (s : State) (o : PerHost (List Offer)) (n : Notice) (x : HostId) :
    (s.withOffers o).joinedOffer n x = s.joinedOffer n x := rfl

theorem State.tellJoined_eq (n : Notice) (s : State) (g : HostId) : s.tellJoined n g =
    s.withOffers (upd s.notice.offers g (s.notice.offers.get g ++ s.joinedOffer n g)) := by
  unfold State.tellJoined State.joinedOffer
  split
  · rfl
  · have same : upd s.notice.offers g (s.notice.offers.get g) = s.notice.offers := by
      simp [upd, Vector.get_eq_getElem]
    rw [List.append_nil, same]
    rfl

/-- Distinct hosts told one after the other are each told once. -/
theorem State.foldl_tellJoined (n : Notice) (gs : List HostId) (distinct : gs.Nodup) (s : State) :
    gs.foldl (State.tellJoined n) s = s.withOffers
      (Vector.ofFn fun x => s.notice.offers.get x ++ if x ∈ gs then s.joinedOffer n x else []) := by
  induction gs generalizing s with
  | nil =>
    have offers : Vector.ofFn s.notice.offers.get = s.notice.offers := by
      ext1 i hi
      simp [Vector.get_eq_getElem]
    simp only [List.foldl_nil, List.not_mem_nil, if_false, List.append_nil, offers]
    rfl
  | cons g gs ih =>
    obtain ⟨fresh, rest⟩ := List.nodup_cons.mp distinct
    rw [List.foldl_cons, ih rest, State.tellJoined_eq, State.withOffers_withOffers]
    congr 2
    funext x
    rcases eq_or_ne g x with rfl | ne
    · simp [fresh]
    · simp [upd_get_ne _ _ ne, ne.symm]

/-- A finding of the store is counted, and FAULT is offered to every host that the store counts JOINED. -/
theorem State.storeFinding_eq (s : State) (k : ObjectKind) (i : Nat) : s.storeFinding k i = withFault k i s := by
  have told := State.foldl_tellJoined (.fault k i) allHosts (List.nodup_finRange 4) s.raiseUncorrected
  simp only [allHosts, List.mem_finRange, if_true] at told
  exact told

@[simp] theorem withFault_dir (k : ObjectKind) (i : Nat) (s : State) : (withFault k i s).dir = s.dir := rfl

@[simp] theorem withFault_store (k : ObjectKind) (i : Nat) (s : State) : (withFault k i s).store = s.store := rfl

/-! ## A descriptor returns to FREE (R83, R85, R97) -/

theorem mapFreed_eq (s : State) (d : DescId) (lo : Nat) : mapFreed s d lo =
    Vector.ofFn fun c => if (s.mapEntry c).ownedFrom d lo then ⟨.free, .sound⟩ else s.store.map.get c := by
  unfold mapFreed
  congr 1
  funext c
  cases s.mapEntry c <;> simp [MapEntry.ownedFrom]

/-- The state with the cell map replaced. -/
def State.withMap (s : State) (m : Vector (Coded MapEntry) 128) : State := { s with store := { s.store with map := m } }

theorem State.putMap_withMap (s : State) (c : CellId) (x : MapEntry) (m : Vector (Coded MapEntry) 128) :
    (s.putMap c x).withMap m = s.withMap m := rfl

theorem foldl_freeOwned (d : DescId) (lo : Nat) (cs : List CellId) (s : State) :
    cs.foldl (fun s c => if (s.mapEntry c).ownedFrom d lo then s.putMap c .free else s) s
      = s.withMap (Vector.ofFn fun c =>
          if c ∈ cs ∧ (s.mapEntry c).ownedFrom d lo = true then ⟨.free, .sound⟩ else s.store.map.get c) := by
  induction cs generalizing s with
  | nil =>
    have map : Vector.ofFn s.store.map.get = s.store.map := by
      ext1 i hi
      simp [Vector.get_eq_getElem]
    simp only [List.foldl_nil, List.not_mem_nil, false_and, if_false, map]
    rfl
  | cons c cs ih =>
    rw [List.foldl_cons, ih]
    by_cases owned : (s.mapEntry c).ownedFrom d lo = true
    · rw [if_pos owned, State.putMap_withMap]
      congr 2
      funext x
      rcases eq_or_ne c x with rfl | ne
      · simp [owned]
      · simp [State.mapEntry, upd_get_ne _ _ ne, ne.symm]
    · rw [if_neg owned]
      congr 2
      funext x
      rcases eq_or_ne c x with rfl | ne
      · simp [owned]
      · simp [ne.symm]

theorem freeOwned_eq (d : DescId) (lo : Nat) (s : State) :
    freeOwned d lo s = s.withMap (mapFreed s d lo) := by
  simp only [freeOwned, foldl_freeOwned, mapFreed_eq, allCells, List.mem_finRange, true_and]

theorem clearDesc_eq (d : DescId) (s : State) : clearDesc d s = { s with store := { s.store with
    descs := upd s.store.descs d ⟨Descriptor.cleared, .sound⟩
    map := mapFreed s d 0
    inbound := s.store.inbound.map fun q => q.drop d
    streams := s.store.streams.map fun r => r.drop d
    space := s.store.space.map fun r => r.drop d } } := by
  rw [clearDesc, freeOwned_eq]
  unfold State.withMap unlinkDesc State.putDesc
  rfl

@[simp] theorem clearDesc_dir (d : DescId) (s : State) : (clearDesc d s).dir = s.dir := by
  rw [clearDesc_eq]

@[simp] theorem clearDesc_descs (d : DescId) (s : State) :
    (clearDesc d s).store.descs = upd s.store.descs d ⟨Descriptor.cleared, .sound⟩ := by
  rw [clearDesc_eq]

theorem clearDesc_desc_ne {d o : DescId} (s : State) (ne : d ≠ o) : (clearDesc d s).desc o = s.desc o := by
  simp [State.desc, upd_get_ne _ _ ne]

theorem clearDesc_stream (d : DescId) (s : State) (h : HostId) : (clearDesc d s).stream h = (s.stream h).drop d := by
  simp [clearDesc_eq, State.stream, Vector.get_eq_getElem]

theorem StreamRecord.drop_openDesc {r : StreamRecord} {d : DescId} (other : r.openDesc ≠ some d) :
    (r.drop d).openDesc = r.openDesc := if_neg other

theorem SpaceRecord.drop_eq (d : DescId) (r : SpaceRecord) : r.drop d = match r with
    | .reserved d' k => if d' = d then .empty else .reserved d' k
    | .empty => .empty
    | .waiting n k => .waiting n k := by
  cases r <;> rfl

theorem freeDesc_of_soundMap {s : State} (d : DescId) (sound : ∀ c, (s.store.map.get c).chk = .sound) :
    freeDesc d s = clearDesc d s := by
  rw [freeDesc, readMapFor_sound d sound]

/-! ## The carrying of a lease fails with its descriptor (R131, R161) -/

theorem LeaseEntry.carriedIn_iff (e : LeaseEntry) (d : DescId) :
    e.carriedIn d = true ↔ e.transit.map Transit.desc = some d := by
  unfold LeaseEntry.carriedIn
  cases e.transit <;> simp

/-- The entry of a lease whose transfer failed: back under a sender still present, or stranded (R131, R73). -/
def LeaseEntry.failed (e : LeaseEntry) : LeaseEntry :=
  if e.ownerPresent then { e with transit := none, ownerPresent := false }
  else { e with state := .stranded, cause := some .handoff, transit := none, ownerPresent := false }

/-- STRANDED to each waiter of an entry whose transfer failed, when that stranded the lease (R75). -/
def LeaseEntry.tellStranded (e : LeaseEntry) (l : LeaseId) (s : State) : State :=
  if e.ownerPresent then s
  else e.waiters.foldl (fun v w => v.offerDir w.1 (.stranded l e.owner .handoff)) s

theorem failEntry_eq (l : LeaseId) (s : State) :
    (failEntry l s).2 = (s.entry l).tellStranded l (s.putEntry l (s.entry l).failed) := by
  unfold failEntry LeaseEntry.tellStranded LeaseEntry.failed
  dsimp only
  split
  · rfl
  · simp only [strandEntry, offerStranded, State.putEntry_entry_same]

theorem LeaseEntry.tellStranded_dir (e : LeaseEntry) (l : LeaseId) (s : State) : (e.tellStranded l s).dir = s.dir := by
  unfold LeaseEntry.tellStranded
  split
  · rfl
  · exact foldl_keeps State.dir (fun s (w : HostId × LeaseMode) => State.offerDir_dir s w.1 _) _ s

theorem failEntry_entries_ne {l l' : LeaseId} (s : State) (ne : l ≠ l') :
    (failEntry l s).2.dir.entries.get l' = s.dir.entries.get l' := by
  rw [failEntry_eq, LeaseEntry.tellStranded_dir, State.putEntry_dir_entries, upd_get_ne _ _ ne]

/-- One step of `transfersLost`: the entry is read, and a carrying in the lost descriptor fails. -/
def loseTransfer (d : DescId) (s : State) (l : LeaseId) : State :=
  match readEntry l s with
  | (true, s) => s
  | (false, s) => if (s.entry l).carriedIn d then (failEntry l s).2 else s

theorem transfersLost_eq (d : DescId) (s : State) : transfersLost d s = allLeases.foldl (loseTransfer d) s := rfl

theorem loseTransfer_store (d : DescId) (s : State) (l : LeaseId) : (loseTransfer d s l).store = s.store := by
  have read := readEntry_store l s
  unfold loseTransfer
  split
  · next e => rwa [e] at read
  · next u e =>
    rw [e] at read
    split
    · exact (failEntry_store l u).trans read
    · exact read

theorem transfersLost_store (d : DescId) (s : State) : (transfersLost d s).store = s.store :=
  foldl_keeps State.store (loseTransfer_store d) allLeases s

theorem loseTransfer_of_carried {d : DescId} {s : State} {l : LeaseId} (sound : EntrySound s l)
    (named : (s.entry l).transit.map Transit.desc = some d) : loseTransfer d s l = (failEntry l s).2 := by
  simp [loseTransfer, readEntry_sound sound, (LeaseEntry.carriedIn_iff _ d).mpr named]

theorem loseTransfer_of_unnamed {d : DescId} {s : State} {l : LeaseId} (sound : EntrySound s l)
    (unnamed : (s.entry l).transit.map Transit.desc ≠ some d) : loseTransfer d s l = s := by
  simp [loseTransfer, readEntry_sound sound, mt (LeaseEntry.carriedIn_iff _ d).mp unnamed]

theorem foldl_loseTransfer_of_unnamed {d : DescId} {s : State} {ls : List LeaseId} (sound : ∀ l ∈ ls, EntrySound s l)
    (unnamed : ∀ l ∈ ls, (s.entry l).transit.map Transit.desc ≠ some d) : ls.foldl (loseTransfer d) s = s := by
  induction ls with
  | nil => rfl
  | cons l ls ih =>
    rw [List.forall_mem_cons] at sound unnamed
    rw [List.foldl_cons, loseTransfer_of_unnamed sound.1 unnamed.1, ih sound.2 unnamed.2]

theorem transfersLost_of_unnamed {d : DescId} {s : State} (sound : ∀ l, EntrySound s l)
    (unnamed : ∀ l, (s.entry l).transit.map Transit.desc ≠ some d) : transfersLost d s = s :=
  foldl_loseTransfer_of_unnamed (fun l _ => sound l) (fun l _ => unnamed l)

/-- Among sound entries of which one alone names the descriptor, that one's transfer fails and nothing else happens. -/
theorem transfersLost_of_carried {d : DescId} {s : State} {l : LeaseId} (sound : ∀ l, EntrySound s l)
    (named : (s.entry l).transit.map Transit.desc = some d)
    (only : ∀ l', l' ≠ l → (s.entry l').transit.map Transit.desc ≠ some d) :
    transfersLost d s = (failEntry l s).2 := by
  obtain ⟨before, after, split⟩ := List.append_of_mem (List.mem_finRange l)
  have distinct : (before ++ l :: after).Nodup := split ▸ List.nodup_finRange 64
  obtain ⟨not_before, not_after⟩ : l ∉ before ∧ l ∉ after := by
    rw [List.nodup_middle, List.nodup_cons, List.mem_append, not_or] at distinct
    exact distinct.1
  have first : before.foldl (loseTransfer d) s = s :=
    foldl_loseTransfer_of_unnamed (fun l' _ => sound l') fun l' mem => only l' (ne_of_mem_of_not_mem mem not_before)
  have kept : ∀ l' ∈ after, (failEntry l s).2.dir.entries.get l' = s.dir.entries.get l' := fun l' mem =>
    failEntry_entries_ne s (ne_of_mem_of_not_mem mem not_after).symm
  have last : after.foldl (loseTransfer d) (failEntry l s).2 = (failEntry l s).2 := by
    refine foldl_loseTransfer_of_unnamed (fun l' mem => ?_) fun l' mem => ?_
    · rw [EntrySound, kept l' mem]
      exact sound l'
    · rw [State.entry, kept l' mem]
      exact only l' (ne_of_mem_of_not_mem mem not_after)
  rw [transfersLost_eq, allLeases, split, List.foldl_append, first, List.foldl_cons,
    loseTransfer_of_carried (sound l) named, last]

/-! ## The loss of a descriptor (R161) -/

theorem readMapEntry_descs (s : State) (c : CellId) : (readMapEntry s c).store.descs = s.store.descs := by
  rcases readMapEntry_cases s c with ⟨-, r⟩ | ⟨-, r⟩ | ⟨-, r⟩
  · rw [r]
  · rw [r]; rfl
  · rw [r, State.storeFinding_eq]; rfl

theorem readMap_descs (s : State) : (readMap s).store.descs = s.store.descs := by
  rw [readMap]
  exact foldl_keeps (fun s => s.store.descs) readMapEntry_descs allCells s

/-- A loss writes the lost descriptor's record and no other descriptor's. -/
theorem loseDescCore_descs (d : DescId) (s : State) :
    (loseDescCore d s).store.descs = upd s.store.descs d ⟨Descriptor.cleared, .sound⟩ := by
  rw [loseDescCore, transfersLost_store, State.storeFinding_eq, withFault_store, clearDesc_descs, readMap_descs]

/-- With a sound cell map a loss frees the descriptor, raises its finding, and then fails the transfers. -/
theorem loseDescCore_of_soundMap {s : State} (d : DescId) (sound : ∀ c, (s.store.map.get c).chk = .sound) :
    loseDescCore d s = transfersLost d (withFault .descriptor d.val (freeDesc d s)) := by
  rw [loseDescCore, readMap_sound sound, State.storeFinding_eq, freeDesc_of_soundMap d sound]

/-- A descriptor freed with its finding raised leaves the lease directory as it is. -/
theorem withFault_freeDesc_dir {s : State} (d : DescId) (sound : ∀ c, (s.store.map.get c).chk = .sound)
    (k : ObjectKind) (i : Nat) : (withFault k i (freeDesc d s)).dir = s.dir := by
  rw [withFault_dir, freeDesc_of_soundMap d sound, clearDesc_dir]

section
variable {s : State} {d : DescId} (mapSound : ∀ c, (s.store.map.get c).chk = .sound) (sound : ∀ l, EntrySound s l)
include mapSound sound

theorem loseDescCore_of_unnamed (unnamed : ∀ l, (s.entry l).transit.map Transit.desc ≠ some d) :
    loseDescCore d s = withFault .descriptor d.val (freeDesc d s) := by
  have dir := withFault_freeDesc_dir d mapSound .descriptor d.val
  rw [loseDescCore_of_soundMap d mapSound]
  refine transfersLost_of_unnamed (fun l => ?_) fun l => ?_
  · rw [EntrySound, dir]
    exact sound l
  · rw [State.entry, dir]
    exact unnamed l

/-- The one lease that the lost descriptor carried returns to its sender or is stranded. -/
theorem loseDescCore_of_carried {l : LeaseId} (named : (s.entry l).transit.map Transit.desc = some d)
    (only : ∀ l', l' ≠ l → (s.entry l').transit.map Transit.desc ≠ some d) :
    loseDescCore d s = (s.entry l).tellStranded l
      ((withFault .descriptor d.val (freeDesc d s)).putEntry l (s.entry l).failed) := by
  have dir := withFault_freeDesc_dir d mapSound .descriptor d.val
  have entry : ∀ l, (withFault .descriptor d.val (freeDesc d s)).entry l = s.entry l := fun l => by
    rw [State.entry, dir, State.entry]
  rw [loseDescCore_of_soundMap d mapSound, transfersLost_of_carried (l := l), failEntry_eq, entry]
  · intro l'
    rw [EntrySound, dir]
    exact sound l'
  · rw [entry]
    exact named
  · intro l' ne
    rw [entry]
    exact only l' ne

end

/-! ## ABANDON (R116) -/

theorem writtenOf_of_msg {s : State} {d : DescId} {m : Message} (msg : (s.desc d).msg = some m) :
    writtenOf d s = m.written := by
  simp [writtenOf, msg]

theorem exec_abandon_of_taken {s t : State} {h : HostId} {id : Nat}
    (taken : s.takeStoreCommand h .abandon [] = some (id, t)) : exec (.abandon h) s = .next (abandonTaken h id t) := by
  simp [exec, execAbandon, taken]

section
variable {t : State} {h : HostId} (id : Nat)

theorem abandonTaken_of_idle (idle : (t.stream h).assembling = none) :
    abandonTaken h id t = t.reply h id .none [] := by
  simp [abandonTaken, idle]

theorem abandonTaken_of_assembling {d : DescId} {m : Message} (assembling : (t.stream h).assembling = some d)
    (msg : (t.desc d).msg = some m) (sound : StoreSound t) : abandonTaken h id t =
      (spaceScan (freeDesc d t)).1.reply h id .ok [word (ownedCells d 0 t), word m.written] := by
  simp [abandonTaken, assembling, readMapFor_sound d sound.2, writtenOf_of_msg msg]

end

/-! ## UNWIND (R117, R125) -/

theorem exec_unwind_of_taken {s t : State} {h : HostId} {id : Nat}
    (taken : s.takeStoreCommand h .unwind [] = some (id, t)) : exec (.unwind h) s = .next (unwindTaken h id t) := by
  simp [exec, execUnwind, taken]

theorem putBackOpen_of_none {s : State} {h : HostId} (closed : (s.stream h).openDesc = none) :
    putBackOpen h s = s := by
  simp [putBackOpen, closed]

theorem putBackOpen_of_open {s : State} {h : HostId} {o : DescId} (opened : (s.stream h).openDesc = some o) :
    putBackOpen h s = (s.putDesc o { s.desc o with state := .queued }).setStream h
      { s.stream h with openDesc := none, readPos := 0 } := by
  simp [putBackOpen, opened]

/-- One host never assembles the message that it has open (R82). -/
theorem openDesc_ne_of_assembling {s : State} {h : HostId} {d : DescId} (ok : StoreOk s)
    (assembling : (s.stream h).assembling = some d) : (s.stream h).openDesc ≠ some d := by
  obtain ⟨-, ⟨-, -, -, assemblingIff, -, openIff, -, -⟩, -⟩ := ok
  intro opened
  have states : DescState.assembling = .opened :=
    ((assemblingIff h d).mp assembling).1.symm.trans ((openIff h d).mp opened).1
  cases states

theorem readOptDesc_of_sound {s : State} {o : Option DescId}
    (sound : ∀ d, o = some d → (s.store.descs.get d).chk = .sound) : readOptDesc o s = (false, s) := by
  cases o with
  | none => rfl
  | some d => simp [readOptDesc, readDescCore, sound d rfl]

theorem readOptDesc_of_uncorrectable {s : State} {d : DescId}
    (flawed : (s.store.descs.get d).chk = .uncorrectable) : readOptDesc (some d) s = (true, loseDescCore d s) := by
  simp [readOptDesc, readDescCore, flawed]

/-- UNWIND's reply word that tells whether a message was open. -/
def openedWord (o : Option DescId) : Word := if o = none then 0#16 else 1#16

theorem word_isSome_eq_openedWord (o : Option DescId) : word (if o.isSome then 1 else 0) = openedWord o := by
  cases o <;> rfl

section
variable {t : State} {h : HostId} (id : Nat)

theorem unwindTaken_of_idle (sound : StoreSound t) (idle : (t.stream h).assembling = none) :
    unwindTaken h id t
      = (putBackOpen h t).reply h id .ok [0#16, openedWord (t.stream h).openDesc, 0#16] := by
  simp only [unwindTaken, readOptDesc_of_sound fun d _ => sound.1 d, idle, word_isSome_eq_openedWord, Bool.or_self,
    Bool.false_eq_true, if_false]
  rfl

theorem unwindTaken_of_assembling {d : DescId} (sound : StoreSound t) (assembling : (t.stream h).assembling = some d) :
    unwindTaken h id t = (spaceScan (putBackOpen h (freeDesc d t))).1.reply h id .ok
      [1#16, openedWord (t.stream h).openDesc, word (ownedCells d 0 t)] := by
  simp only [unwindTaken, readOptDesc_of_sound fun d _ => sound.1 d, assembling, readMapFor_sound d sound.2,
    word_isSome_eq_openedWord, Bool.or_self, Bool.false_eq_true, if_false]
  rfl

/-- One of the two descriptors is lost; the other one is sound, before the loss and after it. -/
theorem unwindTaken_of_uncorrectable {d : DescId}
    (named : (t.stream h).assembling = some d ∨ (t.stream h).openDesc = some d)
    (flawed : (t.store.descs.get d).chk = .uncorrectable)
    (others : ∀ d', (t.stream h).assembling = some d' ∨ (t.stream h).openDesc = some d' → d' ≠ d →
      (t.store.descs.get d').chk = .sound) :
    unwindTaken h id t = (spaceScan (loseDescCore d t)).1.reply h id .damaged [] := by
  by_cases assembling : (t.stream h).assembling = some d
  · have open_sound : ∀ o, (t.stream h).openDesc = some o → ((loseDescCore d t).store.descs.get o).chk = .sound := by
      intro o opened
      rw [loseDescCore_descs]
      rcases eq_or_ne d o with rfl | ne
      · simp
      · rw [upd_get_ne _ _ ne]
        exact others o (.inr opened) ne.symm
    simp [unwindTaken, assembling, readOptDesc_of_uncorrectable flawed, readOptDesc_of_sound open_sound]
  · have opened := named.resolve_left assembling
    have assembling_sound : ∀ a, (t.stream h).assembling = some a → (t.store.descs.get a).chk = .sound := fun a e =>
      others a (.inl e) fun same => assembling (same ▸ e)
    simp [unwindTaken, opened, readOptDesc_of_sound assembling_sound, readOptDesc_of_uncorrectable flawed]

end

/-- The assembling descriptor freed leaves the open message to be put back as it was. -/
theorem putBackOpen_freeDesc_of_open {t : State} {h : HostId} {d o : DescId} (sound : StoreSound t) (ok : StoreOk t)
    (assembling : (t.stream h).assembling = some d) (opened : (t.stream h).openDesc = some o) :
    putBackOpen h (freeDesc d t) = ((freeDesc d t).putDesc o { t.desc o with state := .queued }).setStream h
      { (freeDesc d t).stream h with openDesc := none, readPos := 0 } := by
  have other := openDesc_ne_of_assembling ok assembling
  have ne : d ≠ o := fun same => other (same ▸ opened)
  rw [freeDesc_of_soundMap d sound.2, putBackOpen_of_open (o := o), clearDesc_desc_ne t ne]
  rw [clearDesc_stream, StreamRecord.drop_openDesc other, opened]

theorem putBackOpen_freeDesc_of_none {t : State} {h : HostId} {d : DescId} (sound : StoreSound t)
    (closed : (t.stream h).openDesc = none) : putBackOpen h (freeDesc d t) = freeDesc d t := by
  have other : (t.stream h).openDesc ≠ some d := by simp [closed]
  rw [putBackOpen_of_none]
  rw [freeDesc_of_soundMap d sound.2, clearDesc_stream, StreamRecord.drop_openDesc other, closed]

/-- Settles O37: ABANDON in its two cases; UNWIND by what is assembled and what is open, and by the descriptor its reads
lose; the loss by the lease that was carried; the freed descriptor from `clearDesc_eq`. -/
theorem abandonAndUnwind : Obligations.AbandonAndUnwind := by
  unfold Obligations.AbandonAndUnwind
  refine ⟨fun s t h id taken => ⟨fun idle => ?_, fun d m assembling msg sound => ?_⟩, fun s t h id taken sound => ?_,
    fun s t h id d taken named flawed others => ?_, fun s d mapSound sound => ?_, fun s d mapSound => ?_⟩
  · rw [exec_abandon_of_taken taken, abandonTaken_of_idle id idle]
  · rw [exec_abandon_of_taken taken, abandonTaken_of_assembling id assembling msg sound]
  · dsimp only
    rw [exec_unwind_of_taken taken]
    refine ⟨fun idle => ?_, fun d assembling ok => ?_⟩
    · rw [unwindTaken_of_idle id sound idle]
      cases opened : (t.stream h).openDesc with
      | none => rw [putBackOpen_of_none opened]; rfl
      | some o => rw [putBackOpen_of_open opened]; rfl
    · rw [unwindTaken_of_assembling id sound assembling]
      cases opened : (t.stream h).openDesc with
      | none => rw [putBackOpen_freeDesc_of_none sound opened]; rfl
      | some o => rw [putBackOpen_freeDesc_of_open sound ok assembling opened]; rfl
  · rw [exec_unwind_of_taken taken, unwindTaken_of_uncorrectable id named flawed others]
  · dsimp only
    refine ⟨fun unnamed => loseDescCore_of_unnamed mapSound sound unnamed, fun l carried only => ?_⟩
    rw [loseDescCore_of_carried mapSound sound carried only]
    refine ⟨fun present => ?_, fun away => ?_⟩
    · simp [LeaseEntry.tellStranded, LeaseEntry.failed, present]
    · simp [LeaseEntry.tellStranded, LeaseEntry.failed, away]
  · rw [freeDesc_of_soundMap d mapSound, clearDesc_eq, funext (SpaceRecord.drop_eq d)]
    rfl

end Sys2Proof.Machine
end

section
/-! PROOF. SET_PARAM at the settings block and the store's taking of a change: the charter check by what L0's entry is
found to be, the setting that an id names, one equation for each check of R149, and the obligation about both steps. -/

namespace Sys2Proof.Machine

open Sys2Proof

/-! ## The charter check (R150) -/

theorem charterCheck_of_acts {s : State} {h : HostId} (sound : EntrySound s 0) (acts : (s.entry 0).acts h = true) :
    charterCheck h s = (.pass, s) := by
  simp [charterCheck, readEntry_sound sound, acts]

theorem charterCheck_of_not_acts {s : State} {h : HostId} (sound : EntrySound s 0)
    (other : (s.entry 0).acts h = false) : charterCheck h s = (.fail, s) := by
  simp [charterCheck, readEntry_sound sound, other]

theorem charterCheck_of_uncorrectable {s : State} {h : HostId} (flawed : (s.dir.entries.get 0).chk = .uncorrectable) :
    charterCheck h s = (.damaged, (rebuildEntry 0 s).dirFinding 0) := by
  simp [charterCheck, readEntry, flawed]

/-- An L0 with one bit in error is corrected, and the check is then the check of the corrected entry. -/
theorem charterCheck_of_correctable {s : State} {h : HostId} (flawed : (s.dir.entries.get 0).chk = .correctable) :
    charterCheck h s = charterCheck h ((s.putEntry 0 (s.entry 0)).raiseCorrected) := by
  simp [charterCheck, readEntry, flawed]

/-! ## The setting that an id names (R147) -/

theorem parseSetting_of_toNat {param : Word} {x : Setting} (names : param.toNat = x.number) :
    parseSetting param = some x := by
  cases x <;> simp [parseSetting, names, Setting.number]

theorem parseSetting_of_unknown {param : Word} (unknown : 6 ≤ param.toNat) : parseSetting param = none := by
  unfold parseSetting
  split
  case h_7 => rfl
  all_goals omega

/-! ## SET_PARAM (R148, R149) -/

theorem exec_setParam_of_taken {s t : State} {h : HostId} {param value : Word} {id : Nat}
    (taken : s.takeSettingsCommand h .setParam [param, value] = some (id, t)) :
    exec (.setParam h param value) s = .next (setParamTaken h id param value t) := by
  simp [exec, execSetParam, taken]

/-- The settings block takes the same command from a state in which an entry has been corrected. -/
theorem takeSettingsCommand_corrected {s t : State} {h : HostId} {k : CommandKind} {args : List Word} {id : Nat}
    (l : LeaseId) (taken : s.takeSettingsCommand h k args = some (id, t)) :
    ((s.putEntry l (s.entry l)).raiseCorrected).takeSettingsCommand h k args
      = some (id, (t.putEntry l (t.entry l)).raiseCorrected) := by
  obtain ⟨c, rest, path, isFor, rfl, rfl⟩ := takeSettingsCommand_some taken
  simp only [State.takeSettingsCommand, State.raiseCorrected_settings_path, State.putEntry_settings, path, isFor,
    if_true]
  rfl

section
variable {t : State} {h : HostId} (id : Nat) {param value : Word}

theorem setParamTaken_of_correctable (flawed : (t.dir.entries.get 0).chk = .correctable) :
    setParamTaken h id param value t
      = setParamTaken h id param value ((t.putEntry 0 (t.entry 0)).raiseCorrected) := by
  simp only [setParamTaken, charterCheck_of_correctable flawed]

theorem setParamTaken_of_uncorrectable (flawed : (t.dir.entries.get 0).chk = .uncorrectable) :
    setParamTaken h id param value t = ((rebuildEntry 0 t).dirFinding 0).reply h id .damaged [] := by
  simp only [setParamTaken, charterCheck_of_uncorrectable flawed]

variable (sound : EntrySound t 0)
include sound

theorem setParamTaken_of_not_acts (other : (t.entry 0).acts h = false) :
    setParamTaken h id param value t = t.reply h id .charter [] := by
  simp only [setParamTaken, charterCheck_of_not_acts sound other]

variable (acts : (t.entry 0).acts h = true)
include acts

theorem setParamTaken_of_unknown (unknown : 6 ≤ param.toNat) :
    setParamTaken h id param value t = t.reply h id .badArg [] := by
  simp only [setParamTaken, charterCheck_of_acts sound acts, parseSetting_of_unknown unknown]

variable {x : Setting} (names : param.toNat = x.number)
include names

theorem setParamTaken_of_outside (outside : value.toNat < x.low ∨ x.high < value.toNat) :
    setParamTaken h id param value t = t.reply h id .badArg [] := by
  simp only [setParamTaken, charterCheck_of_acts sound acts, parseSetting_of_toNat names, outside, if_true]

theorem setParamTaken_of_inside (low : x.low ≤ value.toNat) (high : value.toNat ≤ x.high) :
    setParamTaken h id param value t = changeSetting h id x value.toNat t := by
  have inside : ¬ (value.toNat < x.low ∨ x.high < value.toNat) := by omega
  simp only [setParamTaken, charterCheck_of_acts sound acts, parseSetting_of_toNat names, inside, if_false]

end

/-- The id and the value that are reported are the argument words themselves. -/
theorem changeSetting_of_at_once {s : State} {h : HostId} {param value : Word} {x : Setting} (id : Nat)
    (names : param.toNat = x.number) (elsewhere : x.actsAtStore = false) : changeSetting h id x value.toNat s
      = (s.setSetting x value.toNat).reply h id .ok [param, word (s.setting x), value] := by
  simp [changeSetting, elsewhere, word_of_toNat names, word_of_toNat (w := value) rfl]

theorem changeSetting_of_actsAtStore {s : State} {x : Setting} (h : HostId) (id v : Nat)
    (atStore : x.actsAtStore = true) : changeSetting h id x v s = { s.setSetting x v with
      store := { (s.setSetting x v).store with changes := s.store.changes ++ [⟨x, s.setting x, v, h, id⟩] } } := by
  simp only [changeSetting, atStore, if_true]
  rfl

/-! ## The store takes a change (R148) -/

section
variable {s : State} {c : SettingChange} {rest : List SettingChange} (changes : s.store.changes = c :: rest)
include changes

theorem exec_storeSettingChange_of_quota (quota : c.setting.isQuota = true) : exec .storeSettingChange s =
    .next ((spaceScan (applySetting c.setting c.value { s with store := { s.store with changes := rest } })).1.reply
      c.host c.id .ok [word c.setting.number, word c.old, word c.value]) := by
  simp only [exec, execStoreSettingChange, changes, quota, if_true]

theorem exec_storeSettingChange_of_limit (limit : c.setting.isQuota = false) : exec .storeSettingChange s =
    .next ((applySetting c.setting c.value { s with store := { s.store with changes := rest } }).reply
      c.host c.id .ok [word c.setting.number, word c.old, word c.value]) := by
  simp only [exec, execStoreSettingChange, changes, limit, Bool.false_eq_true, if_false]

end

/-- Settles O43: SET_PARAM check by check, by what the charter check finds in L0; a value in range by where its setting
acts; the store's taking by whether the change runs a space scan. -/
theorem setParamRecordsValue : Obligations.SetParamRecordsValue := by
  unfold Obligations.SetParamRecordsValue
  refine ⟨fun s t h param value id taken => ?_, fun s c rest changes => ?_⟩
  · dsimp only
    rw [exec_setParam_of_taken taken]
    refine ⟨fun correctable => ?_, fun uncorrectable => ?_, fun sound other => ?_, fun sound acts =>
      ⟨fun unknown => ?_, fun x names => ⟨fun outside => ?_, fun low high => ⟨fun atOnce => ?_, fun atStore => ?_⟩⟩⟩⟩
    · rw [exec_setParam_of_taken (takeSettingsCommand_corrected 0 taken), setParamTaken_of_correctable id correctable]
    · rw [setParamTaken_of_uncorrectable id uncorrectable]
    · rw [setParamTaken_of_not_acts id sound other]
    · rw [setParamTaken_of_unknown id sound acts unknown]
    · rw [setParamTaken_of_outside id sound acts names outside]
    · have elsewhere : x.actsAtStore = false := by rcases atOnce with rfl | rfl | rfl <;> rfl
      rw [setParamTaken_of_inside id sound acts names low high, changeSetting_of_at_once id names elsewhere]
    · have handed : x.actsAtStore = true := by rcases atStore with rfl | rfl | rfl <;> rfl
      rw [setParamTaken_of_inside id sound acts names low high, changeSetting_of_actsAtStore h id _ handed]
  · refine ⟨fun descs => ?_, fun cells => ?_, fun inbound => ?_⟩
    · rw [exec_storeSettingChange_of_quota changes (by rw [descs]; rfl), descs]; rfl
    · rw [exec_storeSettingChange_of_quota changes (by rw [cells]; rfl), cells]; rfl
    · rw [exec_storeSettingChange_of_limit changes (by rw [inbound]; rfl), inbound]; rfl

end Sys2Proof.Machine
end

section
/-! PROOF. What a row of the directory or of the store leaves alone, said once: the presence unit, the windows of the
ports, the rings, the settings, the time base, the counts of JOINED hosts and the queue of waiting commands. -/

namespace Sys2Proof.Machine

open Sys2Proof

/-- The second state differs from the first at most in lease entries, wait records, the store's objects, the notices on
their way, the findings still to be counted, the command paths, and the replies on their way to the ports. -/
structure Served (s t : State) : Prop where
  presence : t.presence = s.presence
  port : ∀ g, t.port g = { s.port g with replies := (t.port g).replies }
  timeBase : t.timeBase = s.timeBase
  resetn : t.resetn = s.resetn
  pending : t.pending = s.pending
  dirJoined : t.dir.joined = s.dir.joined
  departing : t.dir.departing = s.dir.departing
  notice : t.notice = { s.notice with offers := t.notice.offers, path := t.notice.path }
  settings : t.settings = { s.settings with
    correctedDue := t.settings.correctedDue, uncorrectedDue := t.settings.uncorrectedDue, path := t.settings.path }
  storeJoined : t.store.joined = s.store.joined
  descQuota : t.store.descQuota = s.store.descQuota
  cellQuota : t.store.cellQuota = s.store.cellQuota
  inboundLimit : t.store.inboundLimit = s.store.inboundLimit
  changes : t.store.changes = s.store.changes

theorem Served.refl (s : State) : Served s s := by constructor <;> intros <;> rfl

theorem Served.trans {s t u : State} (a : Served s t) (b : Served t u) : Served s u where
  presence := b.presence.trans a.presence
  port g := (b.port g).trans (by rw [a.port g])
  timeBase := b.timeBase.trans a.timeBase
  resetn := b.resetn.trans a.resetn
  pending := b.pending.trans a.pending
  dirJoined := b.dirJoined.trans a.dirJoined
  departing := b.departing.trans a.departing
  notice := b.notice.trans (by rw [a.notice])
  settings := b.settings.trans (by rw [a.settings])
  storeJoined := b.storeJoined.trans a.storeJoined
  descQuota := b.descQuota.trans a.descQuota
  cellQuota := b.cellQuota.trans a.cellQuota
  inboundLimit := b.inboundLimit.trans a.inboundLimit
  changes := b.changes.trans a.changes

theorem BlockWork.served {s t : State} (w : BlockWork s t) : Served s t where
  presence := w.presence
  port g := by rw [State.port_congr w.ports]
  timeBase := w.timeBase
  resetn := w.resetn
  pending := w.pending
  dirJoined := w.dirJoined
  departing := w.departing
  notice := by dsimp only; rw [← w.rings, ← w.lost, ← w.noticeJoined]
  settings := by
    dsimp only
    rw [← w.tickDiv, ← w.presenceTerm, ← w.descQuota, ← w.cellQuota, ← w.inboundLimit, ← w.spaceHold, ← w.corrected,
      ← w.uncorrected]
  storeJoined := w.storeJoined
  descQuota := w.storeDescQuota
  cellQuota := w.storeCellQuota
  inboundLimit := w.storeInboundLimit
  changes := w.changes

theorem sendReply_served (s : State) (h : HostId) (r : Reply) : Served s (s.sendReply h r) where
  presence := rfl
  port g := by
    rcases eq_or_ne h g with rfl | ne
    · simp [State.sendReply]
    · simp [State.sendReply, State.setPort_port_ne _ _ _ _ ne]
  timeBase := rfl
  resetn := rfl
  pending := rfl
  dirJoined := rfl
  departing := rfl
  notice := rfl
  settings := rfl
  storeJoined := rfl
  descQuota := rfl
  cellQuota := rfl
  inboundLimit := rfl
  changes := rfl

theorem reply_served (s : State) (h : HostId) (id : Nat) (st : Status) (ws : List Word) :
    Served s (s.reply h id st ws) := sendReply_served ..

theorem setDirPath_served (s : State) (p : List PathItem) : Served s (s.setDirPath p) := by
  constructor <;> intros <;> rfl

theorem setStorePath_served (s : State) (p : List StoreItem) : Served s (s.setStorePath p) := by
  constructor <;> intros <;> rfl

theorem setSettingsPath_served (s : State) (p : List PathItem) : Served s (s.setSettingsPath p) := by
  constructor <;> intros <;> rfl

theorem setNoticePath_served (s : State) (p : List PathItem) : Served s (s.setNoticePath p) := by
  constructor <;> intros <;> rfl

end Sys2Proof.Machine
end

section
/-! PROOF. What keeps the lease directory sound: host sets, what a host awaits at an entry, a rewritten entry with the
wait records it touches, and from these each operation of the directory. -/

namespace Sys2Proof.Machine

open Sys2Proof

/-! ## Sets of hosts -/

@[simp] theorem HostSet.has_single (h g : HostId) : HostSet.has (HostSet.single h) g = decide (g = h) := by
  revert h g
  decide

@[simp] theorem HostSet.has_insert (x : HostSet) (h g : HostId) :
    HostSet.has (HostSet.insert x h) g = (HostSet.has x g || decide (g = h)) := by
  rw [← HostSet.has_single, HostSet.insert, HostSet.has, BitVec.getLsbD_or]
  rfl

@[simp] theorem HostSet.has_erase (x : HostSet) (h g : HostId) :
    HostSet.has (HostSet.erase x h) g = (HostSet.has x g && !decide (g = h)) := by
  rw [← HostSet.has_single, HostSet.erase, HostSet.has, BitVec.getLsbD_and, BitVec.getLsbD_not]
  simp [HostSet.has]

@[simp] theorem HostSet.has_zero (g : HostId) : HostSet.has 0#4 g = false := by
  simp [HostSet.has]

theorem HostSet.eq_zero_iff (x : HostSet) : x = 0#4 ↔ ∀ g, HostSet.has x g = false := by
  refine ⟨fun e g => by rw [e, HostSet.has_zero], fun e => BitVec.eq_of_getLsbD_eq fun i lt => ?_⟩
  rw [BitVec.getLsbD_zero]
  exact e ⟨i, lt⟩

theorem HostSet.has_foldl_insert (run : List (HostId × LeaseMode)) (x : HostSet) (g : HostId) :
    HostSet.has (run.foldl (fun x w => HostSet.insert x w.1) x) g = true
      ↔ HostSet.has x g = true ∨ g ∈ run.map Prod.fst := by
  induction run generalizing x with
  | nil => simp
  | cons w run ih => simp [ih, or_assoc]

/-! ## Entries and wait records after an update -/

theorem State.putEntry_entry (s : State) (l l' : LeaseId) (e : LeaseEntry) :
    (s.putEntry l e).entry l' = if l = l' then e else s.entry l' := by
  rw [State.entry, State.putEntry_dir_entries, upd_get]
  split <;> rfl

theorem State.setWait_wait (s : State) (h g : HostId) (r : Option WaitRecord) :
    (s.setWait h r).wait g = if h = g then r else s.wait g := upd_get ..

@[simp] theorem State.putEntry_wait (s : State) (l : LeaseId) (e : LeaseEntry) (g : HostId) :
    (s.putEntry l e).wait g = s.wait g := rfl

@[simp] theorem State.setWait_entry (s : State) (h : HostId) (r : Option WaitRecord) (l : LeaseId) :
    (s.setWait h r).entry l = s.entry l := rfl

@[simp] theorem State.offerDir_entry (s : State) (h : HostId) (n : Notice) (l : LeaseId) :
    (s.offerDir h n).entry l = s.entry l := rfl

@[simp] theorem State.offerDir_wait (s : State) (h : HostId) (n : Notice) (g : HostId) :
    (s.offerDir h n).wait g = s.wait g := rfl

theorem State.entry_of_dir {s t : State} (e : t.dir = s.dir) (l : LeaseId) : t.entry l = s.entry l :=
  State.entry_congr (congrArg (·.entries) e) l

theorem State.wait_of_dir {s t : State} (e : t.dir = s.dir) (h : HostId) : t.wait h = s.wait h :=
  State.wait_congr (congrArg (·.waits) e) h

/-! ## What a host awaits (R42) -/

/-- The lease and the kind that a host's wait record names. -/
def State.waitKey (s : State) (h : HostId) : Option (LeaseId × WaitKind) := (s.wait h).map fun r => (r.lease, r.kind)

/-- The host stands in the entry as one that waits in this way. -/
def LeaseEntry.Awaits (e : LeaseEntry) (h : HostId) : WaitKind → Prop
  | .claimShared => (h, .shared) ∈ e.waiters
  | .claimExclusive => (h, .exclusive) ∈ e.waiters
  | .upgrade => e.upgrade = some h

theorem LeaseEntry.awaits_waitKind (e : LeaseEntry) (h : HostId) (m : LeaseMode) :
    e.Awaits h m.waitKind ↔ (h, m) ∈ e.waiters := by
  cases m <;> rfl

/-- Wait records match the waiter lists and the pending upgrades when each says what the other does. -/
theorem waitsMatch_iff (s : State) : WaitsMatch s ↔ ∀ l h k, (s.entry l).Awaits h k ↔ s.waitKey h = some (l, k) := by
  constructor
  · rintro ⟨claims, upgrades, records⟩ l h k
    constructor
    · intro awaits
      cases k with
      | claimShared => exact claims l h .shared awaits
      | claimExclusive => exact claims l h .exclusive awaits
      | upgrade => exact upgrades l h awaits
    · intro key
      obtain ⟨r, wait, names⟩ := Option.map_eq_some_iff.mp key
      cases names
      rcases records h r wait with ⟨kind, mem⟩ | ⟨kind, mem⟩ | ⟨kind, mem⟩ <;> rw [kind] <;> exact mem
  · intro both
    refine ⟨fun l h m mem => ?_, fun l h slot => (both l h .upgrade).mp slot, fun h r wait => ?_⟩
    · exact (both l h m.waitKind).mp ((LeaseEntry.awaits_waitKind ..).mpr mem)
    · have awaits := (both r.lease h r.kind).mpr (by simp [State.waitKey, wait])
      cases kind : r.kind <;> rw [kind] at awaits
      · exact .inl ⟨rfl, awaits⟩
      · exact .inr (.inl ⟨rfl, awaits⟩)
      · exact .inr (.inr ⟨rfl, awaits⟩)

theorem LeaseEntry.hasWaiter_iff (e : LeaseEntry) (h : HostId) :
    e.hasWaiter h ↔ e.Awaits h .claimShared ∨ e.Awaits h .claimExclusive := by
  simp only [LeaseEntry.hasWaiter, List.mem_map, LeaseEntry.Awaits]
  constructor
  · rintro ⟨⟨g, _ | _⟩, mem, rfl⟩
    · exact .inl mem
    · exact .inr mem
  · rintro (mem | mem)
    · exact ⟨_, mem, rfl⟩
    · exact ⟨_, mem, rfl⟩

theorem LeaseEntry.any_waiter_iff (e : LeaseEntry) (h : HostId) :
    (e.waiters.any fun w => decide (w.1 = h)) = true ↔ e.hasWaiter h := by
  simp [LeaseEntry.hasWaiter]

/-! ## A sound directory but for one entry -/

/-- The directory is sound, but of one entry this is known in place of its soundness. -/
structure DirectoryOkWith (l : LeaseId) (P : LeaseEntry → Prop) (s : State) : Prop where
  others : ∀ l', l' ≠ l → (s.entry l').Ok
  here : P (s.entry l)
  waits : ∀ l' h k, (s.entry l').Awaits h k ↔ s.waitKey h = some (l', k)
  roles : RolesJoined s

theorem directoryOkWith_ok (l : LeaseId) (s : State) : DirectoryOkWith l LeaseEntry.Ok s ↔ DirectoryOk s := by
  constructor
  · intro ⟨others, here, waits, roles⟩
    refine ⟨fun l' => ?_, (waitsMatch_iff s).mpr waits, roles⟩
    rcases eq_or_ne l' l with rfl | ne
    · exact here
    · exact others l' ne
  · intro ⟨entries, waits, roles⟩
    exact ⟨fun l' _ => entries l', entries l, (waitsMatch_iff s).mp waits, roles⟩

/-- A host's waits are as they were. -/
def SameWait (l : LeaseId) (s t : State) (g : HostId) : Prop :=
  t.waitKey g = s.waitKey g ∧ ∀ k, (t.entry l).Awaits g k ↔ (s.entry l).Awaits g k

/-- A host's wait on this lease has ended. -/
def EndedWait (l : LeaseId) (s t : State) (g : HostId) : Prop :=
  (∀ x, s.waitKey g = some x → x.1 = l) ∧ t.waitKey g = none ∧ ∀ k, ¬ (t.entry l).Awaits g k

/-- A host that waited for nothing waits on this lease. -/
def BegunWait (l : LeaseId) (s t : State) (g : HostId) : Prop :=
  s.waitKey g = none ∧ ∃ k₀, t.waitKey g = some (l, k₀) ∧ ∀ k, (t.entry l).Awaits g k ↔ k = k₀

/-- An entry rewritten, and with it the waits on its lease, keeps the directory sound when the roles it gives are those
it gave or go to hosts counted JOINED. -/
theorem DirectoryOkWith.update {l : LeaseId} {P Q : LeaseEntry → Prop} {s t : State} (ok : DirectoryOkWith l P s)
    (others : ∀ l', l' ≠ l → t.entry l' = s.entry l') (joined : t.dir.joined = s.dir.joined)
    (departing : t.dir.departing = s.dir.departing) (here : Q (t.entry l))
    (roles : ∀ g, (t.entry l).hasRole g → (s.entry l).hasRole g ∨ (s.dir.joined.get g).isSome = true)
    (waits : ∀ g, SameWait l s t g ∨ EndedWait l s t g ∨ BegunWait l s t g) : DirectoryOkWith l Q t := by
  refine ⟨fun l' ne => others l' ne ▸ ok.others l' ne, here, fun l' g k => ?_, fun l' g role => ?_⟩
  · rcases eq_or_ne l' l with rfl | ne
    · rcases waits g with ⟨key, awaits⟩ | ⟨-, key, none⟩ | ⟨-, k₀, key, awaits⟩
      · rw [awaits, key, ok.waits]
      · simp [key, none]
      · rw [awaits, key]
        simp [eq_comm]
    · rw [others l' ne, ok.waits]
      rcases waits g with ⟨key, -⟩ | ⟨on, key, -⟩ | ⟨idle, k₀, key, -⟩
      · rw [key]
      · rw [key]
        simp only [reduceCtorEq, iff_false]
        exact fun e => ne (on _ e)
      · rw [key, idle]
        simp [Ne.symm ne]
  · rw [joined, departing]
    rcases eq_or_ne l' l with rfl | ne
    · exact (roles g role).elim (ok.roles l' g) .inl
    · exact ok.roles l' g (others l' ne ▸ role)

/-- The directory's soundness reads its entries, wait records and counts alone. -/
theorem DirectoryOk.congr {s t : State} (ok : DirectoryOk s) (entries : ∀ l, t.entry l = s.entry l)
    (waits : ∀ g, t.waitKey g = s.waitKey g) (joined : t.dir.joined = s.dir.joined)
    (departing : t.dir.departing = s.dir.departing) : DirectoryOk t := by
  rw [← directoryOkWith_ok 0] at ok ⊢
  exact ok.update (fun l _ => entries l) joined departing (by rw [entries]; exact ok.here)
    (fun g role => .inl (entries 0 ▸ role)) fun g => .inl ⟨waits g, fun k => by rw [entries]⟩

theorem DirectoryOk.of_dir {s t : State} (ok : DirectoryOk s) (dir : t.dir = s.dir) : DirectoryOk t :=
  ok.congr (State.entry_of_dir dir) (fun g => by rw [State.waitKey, State.wait_of_dir dir, State.waitKey])
    (congrArg (·.joined) dir) (congrArg (·.departing) dir)

end Sys2Proof.Machine
end

section
/-! PROOF. The grant scan keeps the directory sound: from an entry that a hold or a wait has just left to an entry
within its state (R55 to R58). -/

namespace Sys2Proof.Machine

open Sys2Proof

/-! ## Work at one entry -/

/-- Work of the directory at one lease: the other entries, the store and all that such work cannot touch stay. -/
structure AtEntry (l : LeaseId) (s t : State) : Prop where
  served : Served s t
  store : t.store = s.store
  others : ∀ l', l' ≠ l → t.entry l' = s.entry l'

section
variable {l : LeaseId} {s t u : State}

theorem AtEntry.refl (l : LeaseId) (s : State) : AtEntry l s s := ⟨.refl s, rfl, fun _ _ => rfl⟩

theorem AtEntry.trans (a : AtEntry l s t) (b : AtEntry l t u) : AtEntry l s u :=
  ⟨a.served.trans b.served, b.store.trans a.store, fun l' ne => (b.others l' ne).trans (a.others l' ne)⟩

theorem AtEntry.put (a : AtEntry l s t) (e : LeaseEntry) : AtEntry l s (t.putEntry l e) :=
  a.trans ⟨(putEntry_work t l e).served, rfl, fun _ ne => State.putEntry_entry_ne _ _ _ _ ne.symm⟩

theorem AtEntry.setWait (a : AtEntry l s t) (h : HostId) (r : Option WaitRecord) : AtEntry l s (t.setWait h r) :=
  a.trans ⟨(setWait_work t h r).served, rfl, fun _ _ => rfl⟩

theorem AtEntry.offerDir (a : AtEntry l s t) (h : HostId) (n : Notice) : AtEntry l s (t.offerDir h n) :=
  a.trans ⟨(offerDir_work t h n).served, rfl, fun _ _ => rfl⟩

theorem AtEntry.reply (a : AtEntry l s t) (h : HostId) (id : Nat) (st : Status) (ws : List Word) :
    AtEntry l s (t.reply h id st ws) :=
  a.trans ⟨reply_served .., rfl, fun _ _ => rfl⟩

theorem AtEntry.foldl {α : Type} {f : State → α → State} (each : ∀ s x, AtEntry l s (f s x)) (xs : List α) (s : State) :
    AtEntry l s (xs.foldl f s) := by
  induction xs generalizing s with
  | nil => exact .refl l s
  | cons x xs ih => exact (each s x).trans (ih (f s x))

end

theorem grantScan_atEntry (l : LeaseId) (s : State) : AtEntry l s (grantScan l s).1 := by
  rcases grantScan_cases l s with r | ⟨u, -, -, -, r⟩ | ⟨h, rest, -, -, -, r⟩ | ⟨h, rest, -, -, -, r⟩ <;> rw [r]
  · exact .refl l s
  · exact ((AtEntry.refl l s).put _).setWait .. |>.offerDir ..
  · exact ((AtEntry.refl l s).put _).setWait .. |>.offerDir ..
  · exact ((AtEntry.refl l s).put _).trans
      (AtEntry.foldl (fun s (w : HostId × LeaseMode) => ((AtEntry.refl l s).setWait w.1 none).offerDir w.1 _) _ _)

/-! ## An entry before its scan -/

/-- An entry that a hold or a wait has just left: within its state, but that waiters may stand at a FREE lease and the
pending upgrader may be the sole holder. -/
def LeaseEntry.Scannable (e : LeaseEntry) : Prop :=
  (e.waiters.map Prod.fst).Nodup
    ∧ (e.ownerPresent = true → e.transit.isSome = true)
    ∧ match e.state with
      | .free => e.owner = none ∧ e.holders = 0#4 ∧ e.upgrade = none ∧ e.transit = none ∧ e.cause = none
      | .shared => e.owner = none ∧ e.holders ≠ 0#4 ∧ e.transit = none ∧ e.cause = none
          ∧ (∀ h : HostId, e.hasWaiter h → HostSet.has e.holders h = false)
          ∧ (∀ h : HostId, e.upgrade = some h → HostSet.has e.holders h = true)
      | .exclusive | .stranded => e.Ok

section
variable {e : LeaseEntry}

theorem LeaseEntry.Scannable.of_free (scan : e.Scannable) (free : e.state = .free) :
    e.owner = none ∧ e.holders = 0#4 ∧ e.upgrade = none ∧ e.transit = none ∧ e.cause = none := by
  obtain ⟨-, -, rest⟩ := scan
  rwa [free] at rest

theorem LeaseEntry.Scannable.of_shared (scan : e.Scannable) (shared : e.state = .shared) :
    e.owner = none ∧ e.holders ≠ 0#4 ∧ e.transit = none ∧ e.cause = none
      ∧ (∀ h : HostId, e.hasWaiter h → HostSet.has e.holders h = false)
      ∧ (∀ h : HostId, e.upgrade = some h → HostSet.has e.holders h = true) := by
  obtain ⟨-, -, rest⟩ := scan
  rwa [shared] at rest

theorem LeaseEntry.Ok.of_free (ok : e.Ok) (free : e.state = .free) :
    e.owner = none ∧ e.holders = 0#4 ∧ e.waiters = [] ∧ e.upgrade = none ∧ e.transit = none ∧ e.cause = none := by
  obtain ⟨-, -, rest⟩ := ok
  rwa [free] at rest

theorem LeaseEntry.Ok.of_shared (ok : e.Ok) (shared : e.state = .shared) :
    e.owner = none ∧ e.holders ≠ 0#4 ∧ e.transit = none ∧ e.cause = none
      ∧ (∀ h : HostId, e.hasWaiter h → HostSet.has e.holders h = false)
      ∧ (∀ h : HostId, e.upgrade = some h → HostSet.has e.holders h = true ∧ e.holders ≠ HostSet.single h) := by
  obtain ⟨-, -, rest⟩ := ok
  rwa [shared] at rest

theorem LeaseEntry.Ok.of_exclusive (ok : e.Ok) (exclusive : e.state = .exclusive) :
    e.owner.isSome = true ∧ e.holders = 0#4 ∧ e.upgrade = none ∧ e.cause = none
      ∧ (∀ h : HostId, e.hasWaiter h → e.owner ≠ some h) := by
  obtain ⟨-, -, rest⟩ := ok
  rwa [exclusive] at rest

theorem LeaseEntry.Ok.of_stranded (ok : e.Ok) (stranded : e.state = .stranded) :
    e.holders = 0#4 ∧ e.upgrade = none ∧ e.transit = none ∧ e.cause.isSome = true
      ∧ (e.owner = none ↔ e.cause = some .integrity) := by
  obtain ⟨-, -, rest⟩ := ok
  rwa [stranded] at rest

theorem LeaseEntry.Scannable.ok_of_exclusive (scan : e.Scannable) (exclusive : e.state = .exclusive) : e.Ok := by
  obtain ⟨-, -, rest⟩ := scan
  rwa [exclusive] at rest

theorem LeaseEntry.Scannable.ok_of_stranded (scan : e.Scannable) (stranded : e.state = .stranded) : e.Ok := by
  obtain ⟨-, -, rest⟩ := scan
  rwa [stranded] at rest

theorem LeaseEntry.Ok.nodup (ok : e.Ok) : (e.waiters.map Prod.fst).Nodup := ok.1

theorem LeaseEntry.Ok.present (ok : e.Ok) : e.ownerPresent = true → e.transit.isSome = true := ok.2.1

/-- A pending upgrade stands at a SHARED lease only. -/
theorem LeaseEntry.Scannable.shared_of_upgrade (scan : e.Scannable) {u : HostId} (pending : e.upgrade = some u) :
    e.state = .shared := by
  cases state : e.state with
  | shared => rfl
  | free =>
    obtain ⟨-, -, slot, -⟩ := scan.of_free state
    rw [slot] at pending
    cases pending
  | exclusive =>
    obtain ⟨-, -, slot, -⟩ := (scan.ok_of_exclusive state).of_exclusive state
    rw [slot] at pending
    cases pending
  | stranded =>
    obtain ⟨-, slot, -⟩ := (scan.ok_of_stranded state).of_stranded state
    rw [slot] at pending
    cases pending

theorem LeaseEntry.Ok.scannable (ok : e.Ok) : e.Scannable := by
  refine ⟨ok.nodup, ok.present, ?_⟩
  cases state : e.state with
  | free =>
    obtain ⟨owner, holders, -, rest⟩ := ok.of_free state
    exact ⟨owner, holders, rest⟩
  | shared =>
    obtain ⟨owner, holders, transit, cause, waiters, upgrade⟩ := ok.of_shared state
    exact ⟨owner, holders, transit, cause, waiters, fun h slot => (upgrade h slot).1⟩
  | exclusive => exact ok
  | stranded => exact ok

theorem LeaseEntry.Scannable.ok_of_shared (scan : e.Scannable) (shared : e.state = .shared)
    (others : ∀ u, e.upgrade = some u → e.holders ≠ HostSet.single u) : e.Ok := by
  obtain ⟨owner, holders, transit, cause, waiters, upgrade⟩ := scan.of_shared shared
  refine ⟨scan.1, scan.2.1, ?_⟩
  rw [shared]
  exact ⟨owner, holders, transit, cause, waiters, fun h slot => ⟨upgrade h slot, others h slot⟩⟩

theorem LeaseEntry.Scannable.ok_of_free (scan : e.Scannable) (free : e.state = .free) (waiters : e.waiters = []) :
    e.Ok := by
  obtain ⟨owner, holders, rest⟩ := scan.of_free free
  refine ⟨scan.1, scan.2.1, ?_⟩
  rw [free]
  exact ⟨owner, holders, waiters, rest⟩

theorem LeaseEntry.acts_iff (e : LeaseEntry) (h : HostId) : e.acts h = true ↔
    e.state = .exclusive ∧ e.owner = some h ∧ (e.transit = none ∨ e.ownerPresent = true) := by
  simp [LeaseEntry.acts, and_assoc]

end

/-! ## The waits of a sound directory -/

section
variable {l : LeaseId} {P : LeaseEntry → Prop} {s t : State}

theorem DirectoryOkWith.key (ok : DirectoryOkWith l P s) {l' : LeaseId} {h : HostId} {k : WaitKind}
    (awaits : (s.entry l').Awaits h k) : s.waitKey h = some (l', k) := (ok.waits ..).mp awaits

/-- A host that waits at a lease has its record on that lease. -/
theorem DirectoryOkWith.key_lease (ok : DirectoryOkWith l P s) {l' : LeaseId} {h : HostId} {k : WaitKind}
    (awaits : (s.entry l').Awaits h k) : ∀ x, s.waitKey h = some x → x.1 = l' := by
  intro x key
  rw [ok.key awaits] at key
  cases key
  rfl

theorem DirectoryOkWith.awaits_unique (ok : DirectoryOkWith l P s) {l' : LeaseId} {h : HostId} {k k' : WaitKind}
    (a : (s.entry l').Awaits h k) (b : (s.entry l').Awaits h k') : k = k' := by
  have := (ok.key a).symm.trans (ok.key b)
  cases this
  rfl

theorem DirectoryOkWith.key_of_waiter (ok : DirectoryOkWith l P s) {l' : LeaseId} {h : HostId}
    (waiter : (s.entry l').hasWaiter h) : ∀ x, s.waitKey h = some x → x.1 = l' := by
  rcases ((s.entry l').hasWaiter_iff h).mp waiter with a | a <;> exact ok.key_lease a

/-- A waiter has no pending upgrade. -/
theorem DirectoryOkWith.no_upgrade_of_waiter (ok : DirectoryOkWith l P s) {l' : LeaseId} {h : HostId}
    (waiter : (s.entry l').hasWaiter h) : (s.entry l').upgrade ≠ some h := by
  intro slot
  rcases ((s.entry l').hasWaiter_iff h).mp waiter with a | a <;> cases ok.awaits_unique a (k' := .upgrade) slot

end

theorem State.waitKey_of_wait {s t : State} {g : HostId} (e : t.wait g = s.wait g) : t.waitKey g = s.waitKey g := by
  rw [State.waitKey, e, State.waitKey]

theorem State.waitKey_of_none {t : State} {g : HostId} (e : t.wait g = none) : t.waitKey g = none := by
  rw [State.waitKey, e, Option.map_none]

/-- Waiters that are the same for a host, and a slot that is the same, let it await the same. -/
theorem LeaseEntry.awaits_congr {e e' : LeaseEntry} {g : HostId}
    (waiters : ∀ m, (g, m) ∈ e'.waiters ↔ (g, m) ∈ e.waiters) (slot : e'.upgrade = some g ↔ e.upgrade = some g)
    (k : WaitKind) : e'.Awaits g k ↔ e.Awaits g k := by
  cases k with
  | claimShared => exact waiters .shared
  | claimExclusive => exact waiters .exclusive
  | upgrade => exact slot

theorem LeaseEntry.not_awaits {e : LeaseEntry} {g : HostId} (waiter : ¬ e.hasWaiter g) (slot : e.upgrade ≠ some g)
    (k : WaitKind) : ¬ e.Awaits g k := by
  rw [LeaseEntry.hasWaiter_iff, not_or] at waiter
  cases k with
  | claimShared => exact waiter.1
  | claimExclusive => exact waiter.2
  | upgrade => exact slot

theorem LeaseEntry.mem_dropWaiter {e : LeaseEntry} {h g : HostId} {m : LeaseMode} :
    (g, m) ∈ (e.dropWaiter h).waiters ↔ (g, m) ∈ e.waiters ∧ g ≠ h := by
  simp [LeaseEntry.dropWaiter]

theorem LeaseEntry.hasWaiter_of_mem {e : LeaseEntry} {g : HostId} {m : LeaseMode} (mem : (g, m) ∈ e.waiters) :
    e.hasWaiter g := List.mem_map_of_mem mem

/-! ## The three grants (R52, R56) -/

section
variable {l : LeaseId} {s : State}

theorem completeUpgrade_entry (l : LeaseId) (u : HostId) (s : State) :
    (completeUpgrade l u s).entry l = { (s.entry l).enterExclusive u with upgrade := none } := by
  simp [completeUpgrade]

theorem completeUpgrade_role {u g : HostId} (holder : HostSet.has (s.entry l).holders u = true)
    (role : ((completeUpgrade l u s).entry l).hasRole g) : (s.entry l).hasRole g := by
  rw [completeUpgrade_entry] at role
  rcases role with none | acts | waiter
  · simp [LeaseEntry.enterExclusive] at none
  · obtain ⟨-, own, -⟩ := (LeaseEntry.acts_iff ..).mp acts
    exact .inl (Option.some.inj own ▸ holder)
  · exact .inr (.inr waiter)

theorem completeUpgrade_ok {u : HostId} (ok : DirectoryOkWith l LeaseEntry.Scannable s)
    (pending : (s.entry l).upgrade = some u) : DirectoryOk (completeUpgrade l u s) := by
  have shared := ok.here.shared_of_upgrade pending
  obtain ⟨-, -, transit, cause, waiters, upgrade⟩ := ok.here.of_shared shared
  have entry := completeUpgrade_entry l u s
  have not_waiter : ¬ (s.entry l).hasWaiter u := fun w => by
    have := waiters u w
    rw [upgrade u pending] at this
    cases this
  rw [← directoryOkWith_ok l]
  refine ok.update (fun l' ne => ?_) rfl rfl ?_
    (fun g role => .inl (completeUpgrade_role (upgrade u pending) role)) fun g => ?_
  · simp [completeUpgrade, State.putEntry_entry, ne.symm]
  · rw [entry]
    exact ⟨ok.here.1, ok.here.2.1, rfl, rfl, rfl, cause, fun g w own => not_waiter (Option.some.inj own ▸ w)⟩
  · rcases eq_or_ne u g with rfl | ne
    · refine .inr (.inl ⟨ok.key_lease (k := .upgrade) pending, ?_, ?_⟩)
      · exact State.waitKey_of_none (by simp [completeUpgrade])
      · rw [entry]
        exact LeaseEntry.not_awaits not_waiter (by simp)
    · refine .inl ⟨State.waitKey_of_wait (by simp [completeUpgrade, State.setWait_wait, ne]), fun k => ?_⟩
      rw [entry]
      refine LeaseEntry.awaits_congr (fun m => ?_) ?_ k
      · rfl
      · simp [pending, ne]

theorem grantExclusive_entry (l : LeaseId) (h : HostId) (rest : List (HostId × LeaseMode)) (s : State) :
    (grantExclusive l h rest s).entry l = { (s.entry l).enterExclusive h with waiters := rest } := by
  simp [grantExclusive]

theorem grantExclusive_role {h g : HostId} {rest : List (HostId × LeaseMode)}
    (head : (s.entry l).waiters = (h, .exclusive) :: rest)
    (role : ((grantExclusive l h rest s).entry l).hasRole g) : (s.entry l).hasRole g := by
  rw [grantExclusive_entry] at role
  rcases role with none | acts | waiter
  · simp [LeaseEntry.enterExclusive] at none
  · obtain ⟨-, own, -⟩ := (LeaseEntry.acts_iff ..).mp acts
    cases own
    exact .inr (.inr (LeaseEntry.hasWaiter_of_mem (head ▸ List.mem_cons_self)))
  · refine .inr (.inr ?_)
    rw [LeaseEntry.hasWaiter, head]
    exact List.mem_cons_of_mem _ waiter

theorem grantExclusive_ok {h : HostId} {rest : List (HostId × LeaseMode)}
    (ok : DirectoryOkWith l LeaseEntry.Scannable s) (free : (s.entry l).state = .free)
    (head : (s.entry l).waiters = (h, .exclusive) :: rest) : DirectoryOk (grantExclusive l h rest s) := by
  obtain ⟨-, -, slot, transit, cause⟩ := ok.here.of_free free
  obtain ⟨nodup, present, -⟩ := ok.here
  rw [head, List.map_cons, List.nodup_cons] at nodup
  have entry := grantExclusive_entry l h rest s
  have was_waiter : (s.entry l).hasWaiter h := LeaseEntry.hasWaiter_of_mem (head ▸ List.mem_cons_self)
  rw [← directoryOkWith_ok l]
  refine ok.update (fun l' ne => ?_) rfl rfl ?_ (fun g role => .inl (grantExclusive_role head role)) fun g => ?_
  · simp [grantExclusive, State.putEntry_entry, ne.symm]
  · rw [entry]
    exact ⟨nodup.2, present, rfl, rfl, slot, cause, fun g w own => nodup.1 (Option.some.inj own ▸ w)⟩
  · rcases eq_or_ne h g with rfl | ne
    · refine .inr (.inl ⟨ok.key_of_waiter was_waiter, State.waitKey_of_none (by simp [grantExclusive]), ?_⟩)
      rw [entry]
      exact LeaseEntry.not_awaits nodup.1 (by simp [LeaseEntry.enterExclusive, slot])
    · refine .inl ⟨State.waitKey_of_wait (by simp [grantExclusive, State.setWait_wait, ne]), fun k => ?_⟩
      rw [entry]
      refine LeaseEntry.awaits_congr (fun m => ?_) ?_ k
      · simp [head, ne.symm]
      · rfl

/-- The run of SHARED waiters at the head and those behind it. -/
theorem sharedRun_append (e : LeaseEntry) :
    e.waiters.takeWhile isSharedWaiter ++ e.waiters.drop (e.waiters.takeWhile isSharedWaiter).length = e.waiters := by
  rw [drop_length_takeWhile, List.takeWhile_append_dropWhile]

@[simp] theorem State.grantAll_entry (s : State) (n : Notice) (gs : List HostId) (l : LeaseId) :
    (s.grantAll n gs).entry l = s.entry l := rfl

@[simp] theorem State.grantAll_wait (s : State) (n : Notice) (gs : List HostId) (g : HostId) :
    (s.grantAll n gs).wait g = if g ∈ gs then none else s.wait g := by
  simp [State.grantAll, State.wait, Vector.get_eq_getElem]

theorem grantSharedRun_entry (l : LeaseId) (s : State) (nodup : ((s.entry l).waiters.map Prod.fst).Nodup) :
    let run := (s.entry l).waiters.takeWhile isSharedWaiter
    (grantSharedRun l s).1.entry l = { s.entry l with
      state := .shared
      holders := run.foldl (fun x w => HostSet.insert x w.1) (s.entry l).holders
      waiters := (s.entry l).waiters.drop run.length } := by
  dsimp only
  rw [congrArg Prod.fst (grantSharedRun_eq l s nodup), State.grantAll_entry, State.putEntry_entry_same]

theorem grantSharedRun_role {g : HostId} (nodup : ((s.entry l).waiters.map Prod.fst).Nodup)
    (role : ((grantSharedRun l s).1.entry l).hasRole g) : (s.entry l).hasRole g := by
  have parts := sharedRun_append (s.entry l)
  rw [grantSharedRun_entry l s nodup] at role
  rcases role with holder | acts | waiter
  · refine ((HostSet.has_foldl_insert ..).mp holder).imp id fun inRun => .inr ?_
    rw [LeaseEntry.hasWaiter, ← parts, List.map_append]
    exact List.mem_append_left _ inRun
  · cases ((LeaseEntry.acts_iff ..).mp acts).1
  · refine .inr (.inr ?_)
    rw [LeaseEntry.hasWaiter, ← parts, List.map_append]
    exact List.mem_append_right _ waiter

theorem grantSharedRun_ok {h : HostId} {rest : List (HostId × LeaseMode)}
    (ok : DirectoryOkWith l LeaseEntry.Scannable s) (state : (s.entry l).state = .free ∨ (s.entry l).state = .shared)
    (slot : (s.entry l).upgrade = none) (head : (s.entry l).waiters = (h, .shared) :: rest) :
    DirectoryOk (grantSharedRun l s).1 := by
  obtain ⟨owner, transit, cause, apart⟩ : (s.entry l).owner = none ∧ (s.entry l).transit = none
      ∧ (s.entry l).cause = none ∧ ∀ g, (s.entry l).hasWaiter g → HostSet.has (s.entry l).holders g = false := by
    rcases state with free | shared
    · obtain ⟨owner, holders, -, transit, cause⟩ := ok.here.of_free free
      exact ⟨owner, transit, cause, fun g _ => by rw [holders, HostSet.has_zero]⟩
    · obtain ⟨owner, -, transit, cause, apart, -⟩ := ok.here.of_shared shared
      exact ⟨owner, transit, cause, apart⟩
  obtain ⟨nodup, present, -⟩ := ok.here
  have parts := sharedRun_append (s.entry l)
  have run_head : h ∈ ((s.entry l).waiters.takeWhile isSharedWaiter).map Prod.fst := by
    simp [head, isSharedWaiter]
  have roles : ∀ g, ((grantSharedRun l s).1.entry l).hasRole g → (s.entry l).hasRole g := fun g =>
    grantSharedRun_role nodup
  rw [congrArg Prod.fst (grantSharedRun_eq l s nodup)] at roles ⊢
  dsimp only at roles ⊢
  generalize runEq : (s.entry l).waiters.takeWhile isSharedWaiter = run at *
  generalize backEq : (s.entry l).waiters.drop run.length = back at *
  have split : (run.map Prod.fst ++ back.map Prod.fst).Nodup := by rw [← List.map_append, parts]; exact nodup
  have disjoint : ∀ g, g ∈ run.map Prod.fst → g ∉ back.map Prod.fst := fun g a b =>
    (List.nodup_append.mp split).2.2 g a g b rfl
  have waiter_iff : ∀ g, (s.entry l).hasWaiter g ↔ g ∈ run.map Prod.fst ∨ g ∈ back.map Prod.fst := fun g => by
    rw [LeaseEntry.hasWaiter, ← parts, List.map_append, List.mem_append]
  rw [← directoryOkWith_ok l]
  refine ok.update (fun l' ne => ?_) rfl rfl ?_ (fun g role => .inl (roles g role)) fun g => ?_
  · simp [State.putEntry_entry, ne.symm]
  · rw [State.grantAll_entry, State.putEntry_entry_same]
    refine ⟨(List.nodup_append.mp split).2.1, present, owner, fun none => ?_, transit, cause, fun g w => ?_,
      fun g e => by rw [slot] at e; cases e⟩
    · have := (HostSet.eq_zero_iff _).mp none h
      rw [Bool.eq_false_iff] at this
      exact this ((HostSet.has_foldl_insert ..).mpr (.inr run_head))
    · rw [Bool.eq_false_iff, ne_eq, HostSet.has_foldl_insert, not_or]
      refine ⟨?_, fun inRun => disjoint g inRun w⟩
      rw [apart g ((waiter_iff g).mpr (.inr w))]
      exact Bool.false_ne_true
  · by_cases inRun : g ∈ run.map Prod.fst
    · refine .inr (.inl ⟨ok.key_of_waiter ((waiter_iff g).mpr (.inl inRun)), ?_, ?_⟩)
      · exact State.waitKey_of_none (by rw [State.grantAll_wait, if_pos inRun])
      · rw [State.grantAll_entry, State.putEntry_entry_same]
        exact LeaseEntry.not_awaits (disjoint g inRun) (by simp [slot])
    · refine .inl ⟨State.waitKey_of_wait (by rw [State.grantAll_wait, if_neg inRun]; rfl), fun k => ?_⟩
      rw [State.grantAll_entry, State.putEntry_entry_same]
      refine LeaseEntry.awaits_congr (fun m => ?_) ?_ k
      · have not_run : (g, m) ∉ run := fun mem => inRun (List.mem_map_of_mem mem)
        rw [← parts, List.mem_append]
        exact ⟨.inr, fun mem => mem.resolve_left not_run⟩
      · rfl

/-- The grant scan gives no role to a host that had none. -/
theorem grantScan_role {g : HostId} (scan : (s.entry l).Scannable)
    (role : ((grantScan l s).1.entry l).hasRole g) : (s.entry l).hasRole g := by
  rcases grantScan_cases l s with r | ⟨u, pending, state, sole, r⟩ | ⟨h, rest, -, -, head, r⟩ | ⟨h, rest, -, -, -, r⟩ <;>
    rw [r] at role
  · exact role
  · exact completeUpgrade_role (by rw [sole, HostSet.has_single, decide_eq_true_eq]) role
  · exact grantExclusive_role head role
  · exact grantSharedRun_role scan.1 role

/-- The grant scan takes a directory whose one entry waits for it to a sound directory. -/
theorem grantScan_ok (ok : DirectoryOkWith l LeaseEntry.Scannable s) : DirectoryOk (grantScan l s).1 := by
  have stays (e : (s.entry l).Ok) (r : grantScan l s = (s, 0)) : DirectoryOk (grantScan l s).1 := by
    rw [r, ← directoryOkWith_ok l]
    exact ⟨ok.others, e, ok.waits, ok.roles⟩
  cases slot : (s.entry l).upgrade with
  | some u =>
    have shared := ok.here.shared_of_upgrade slot
    by_cases sole : (s.entry l).holders = HostSet.single u
    · rw [grantScan_of_sole_holder slot shared sole]
      exact completeUpgrade_ok ok slot
    · refine stays (ok.here.ok_of_shared shared fun v pending => ?_) (grantScan_of_other_holders slot sole)
      rw [slot] at pending
      exact Option.some.inj pending ▸ sole
  | none =>
    cases state : (s.entry l).state with
    | exclusive => exact stays (ok.here.ok_of_exclusive state) (grantScan_exclusive state)
    | stranded => exact stays (ok.here.ok_of_stranded state) (grantScan_stranded state)
    | free =>
      cases waiters : (s.entry l).waiters with
      | nil => exact stays (ok.here.ok_of_free state waiters) (grantScan_of_no_waiters slot waiters)
      | cons w rest =>
        obtain ⟨h, _ | _⟩ := w
        · rw [grantScan_of_shared_head slot (.inl state) waiters]
          exact grantSharedRun_ok ok (.inl state) slot waiters
        · rw [grantScan_of_exclusive_head slot state waiters]
          exact grantExclusive_ok ok state waiters
    | shared =>
      have entryOk : (s.entry l).Ok := ok.here.ok_of_shared state fun v pending => by rw [slot] at pending; cases pending
      cases waiters : (s.entry l).waiters with
      | nil => exact stays entryOk (grantScan_of_no_waiters slot waiters)
      | cons w rest =>
        obtain ⟨h, _ | _⟩ := w
        · rw [grantScan_of_shared_head slot (.inr state) waiters]
          exact grantSharedRun_ok ok (.inr state) slot waiters
        · exact stays entryOk (grantScan_of_exclusive_head_shared slot state waiters)

end

end Sys2Proof.Machine
end

section
/-! PROOF. The directory's operations at one lease: what each does to the generation, the owner, the value and the
transit record (R22, R23), and that each keeps the directory sound. -/

namespace Sys2Proof.Machine

open Sys2Proof

/-! ## What an entry may become (R22, R23) -/

/-- An entry rewritten with its generation and value kept: it enters EXCLUSIVE under nobody new, and no transit. -/
structure LeaseEntry.Keeps (e e' : LeaseEntry) : Prop where
  generation : e'.generation = e.generation
  value : e'.value = e.value
  exclusive : e'.state = .exclusive → e.state = .exclusive ∧ e'.owner = e.owner
  transit : ∀ x, e'.transit = some x → e.transit = some x

/-- What one step of the directory makes of an entry: the generation rises with each entry into EXCLUSIVE and each change
of owner, and otherwise stays (R22). -/
structure LeaseEntry.Law (e e' : LeaseEntry) : Prop where
  generation : e'.generation = e.generation ∨ (e'.generation = e.generation + 1#16 ∧ e'.state = .exclusive)
  exclusive : e'.state = .exclusive → e.state ≠ .exclusive ∨ e.owner ≠ e'.owner → e'.generation = e.generation + 1#16
  value : e'.value = e.value
  transit : ∀ x, e'.transit = some x → e.transit = some x

section
variable {e e' e'' : LeaseEntry}

theorem LeaseEntry.Keeps.refl (e : LeaseEntry) : e.Keeps e := ⟨rfl, rfl, fun s => ⟨s, rfl⟩, fun _ t => t⟩

theorem LeaseEntry.Keeps.law (k : e.Keeps e') : e.Law e' where
  generation := .inl k.generation
  exclusive state other := by
    obtain ⟨was, owner⟩ := k.exclusive state
    rcases other with other | other
    · exact absurd was other
    · exact absurd owner.symm other
  value := k.value
  transit := k.transit

theorem LeaseEntry.Law.of_raised (generation : e'.generation = e.generation + 1#16) (value : e'.value = e.value)
    (state : e'.state = .exclusive) (transit : ∀ x, e'.transit = some x → e.transit = some x) : e.Law e' :=
  ⟨.inr ⟨generation, state⟩, fun _ _ => generation, value, transit⟩

end

/-- The scan enters the entry into EXCLUSIVE at the next generation, or makes it SHARED, or leaves it. -/
theorem LeaseEntry.Keeps.law_grantScan {e : LeaseEntry} {l : LeaseId} {t : State} (k : e.Keeps (t.entry l)) :
    e.Law ((grantScan l t).1.entry l) := by
  rcases grantScan_cases l t with r | ⟨u, -, -, -, r⟩ | ⟨h, rest, -, -, -, r⟩ | ⟨h, rest, -, -, -, r⟩ <;> rw [r]
  · exact k.law
  · dsimp only
    rw [completeUpgrade_entry]
    refine .of_raised ?_ k.value rfl k.transit
    rw [← k.generation]
    rfl
  · dsimp only
    rw [grantExclusive_entry]
    refine .of_raised ?_ k.value rfl k.transit
    rw [← k.generation]
    rfl
  · have entry : (grantSharedRun l t).1.entry l = { t.entry l with
        state := .shared
        holders := ((t.entry l).waiters.takeWhile isSharedWaiter).foldl (fun x w => HostSet.insert x w.1)
          (t.entry l).holders
        waiters := (t.entry l).waiters.dropWhile isSharedWaiter } :=
      (foldl_keeps (fun s => s.entry l) (f := grantSharedHost l) (fun _ _ => rfl) _ _).trans (State.putEntry_entry_same ..)
    rw [entry]
    exact LeaseEntry.Keeps.law ⟨k.generation, k.value, nofun, k.transit⟩

/-! ## A step of the directory at one lease -/

/-- One step of the directory at one lease: the entry follows the law of R22, and the directory stays sound. -/
structure EntryStep (l : LeaseId) (s t : State) : Prop where
  at_entry : AtEntry l s t
  law : (s.entry l).Law (t.entry l)
  ok : DirectoryOk s → DirectoryOk t

section
variable {l : LeaseId} {s t u : State}

theorem EntryStep.refl (l : LeaseId) (s : State) : EntryStep l s s := ⟨.refl l s, (LeaseEntry.Keeps.refl _).law, id⟩

theorem EntryStep.reply (a : EntryStep l s t) (h : HostId) (id : Nat) (st : Status) (ws : List Word) :
    EntryStep l s (t.reply h id st ws) :=
  ⟨a.at_entry.reply h id st ws, a.law, fun ok => (a.ok ok).of_dir rfl⟩

theorem EntryStep.offerDir (a : EntryStep l s t) (h : HostId) (n : Notice) : EntryStep l s (t.offerDir h n) :=
  ⟨a.at_entry.offerDir h n, a.law, fun ok => (a.ok ok).of_dir rfl⟩

/-- Work at an entry and then its scan. -/
theorem AtEntry.scan (a : AtEntry l s t) (kept : (s.entry l).Keeps (t.entry l))
    (ok : DirectoryOk s → DirectoryOkWith l LeaseEntry.Scannable t) : EntryStep l s (grantScan l t).1 :=
  ⟨a.trans (grantScan_atEntry l t), kept.law_grantScan, fun h => grantScan_ok (ok h)⟩

/-- An entry rewritten that keeps its waiters and its slot: sound when the new entry is and gives no new role. -/
theorem DirectoryOk.rewrite {Q : LeaseEntry → Prop} (ok : DirectoryOk s) {e : LeaseEntry}
    (waiters : e.waiters = (s.entry l).waiters) (slot : e.upgrade = (s.entry l).upgrade) (here : Q e)
    (roles : ∀ g, e.hasRole g → (s.entry l).hasRole g ∨ (s.dir.joined.get g).isSome = true) :
    DirectoryOkWith l Q (s.putEntry l e) := by
  refine ((directoryOkWith_ok l s).mpr ok).update (fun l' ne => State.putEntry_entry_ne _ _ _ _ ne.symm) rfl rfl
    (by rwa [State.putEntry_entry_same]) (fun g role => roles g (by rwa [State.putEntry_entry_same] at role)) fun g => ?_
  refine .inl ⟨rfl, fun k => LeaseEntry.awaits_congr (fun m => ?_) ?_ k⟩
  · rw [State.putEntry_entry_same, waiters]
  · rw [State.putEntry_entry_same, slot]

/-- An entry rewritten, and one host's waits with it. -/
theorem DirectoryOk.rewrite_for {Q : LeaseEntry → Prop} (ok : DirectoryOk s) (h : HostId) {e : LeaseEntry}
    {r : Option WaitRecord} (here : Q e)
    (roles : ∀ g, e.hasRole g → (s.entry l).hasRole g ∨ (s.dir.joined.get g).isSome = true)
    (waiters : ∀ g, g ≠ h → ∀ m, (g, m) ∈ e.waiters ↔ (g, m) ∈ (s.entry l).waiters)
    (slot : ∀ g, g ≠ h → (e.upgrade = some g ↔ (s.entry l).upgrade = some g))
    (own : EndedWait l s ((s.putEntry l e).setWait h r) h ∨ BegunWait l s ((s.putEntry l e).setWait h r) h) :
    DirectoryOkWith l Q ((s.putEntry l e).setWait h r) := by
  have entry : ((s.putEntry l e).setWait h r).entry l = e := by simp
  refine ((directoryOkWith_ok l s).mpr ok).update (fun l' ne => State.putEntry_entry_ne _ _ _ _ ne.symm) rfl rfl
    (by rwa [entry]) (fun g role => roles g (by rwa [entry] at role)) fun g => ?_
  rcases eq_or_ne g h with rfl | ne
  · exact .inr own
  · refine .inl ⟨State.waitKey_of_wait (by simp [State.setWait_wait, ne.symm]), fun k =>
      LeaseEntry.awaits_congr (fun m => ?_) ?_ k⟩
    · rw [entry, waiters g ne]
    · rw [entry, slot g ne]

/-- A host that waits at the lease waits no longer. -/
theorem endedWait_of_awaits (ok : DirectoryOk s) {h : HostId} {e : LeaseEntry} {k : WaitKind}
    (awaits : (s.entry l).Awaits h k) (waiter : ¬ e.hasWaiter h) (slot : e.upgrade ≠ some h) :
    EndedWait l s ((s.putEntry l e).setWait h none) h := by
  refine ⟨((directoryOkWith_ok l s).mpr ok).key_lease awaits, State.waitKey_of_none (by simp), ?_⟩
  rw [State.setWait_entry, State.putEntry_entry_same]
  exact LeaseEntry.not_awaits waiter slot

end

/-! ## A hold given up (R35, R66) -/

section
variable {l : LeaseId} {h : HostId} {s : State}

theorem DirectoryOk.entry_ok (ok : DirectoryOk s) (l : LeaseId) : (s.entry l).Ok := ok.1 l

/-- Shared holders stand at a SHARED lease only. -/
theorem LeaseEntry.Ok.shared_of_holder {e : LeaseEntry} (ok : e.Ok) (holder : HostSet.has e.holders h = true) :
    e.state = .shared := by
  have held : e.holders ≠ 0#4 := fun none => by rw [none, HostSet.has_zero] at holder; cases holder
  cases state : e.state with
  | shared => rfl
  | free =>
    obtain ⟨-, none, -⟩ := ok.of_free state
    exact absurd none held
  | exclusive =>
    obtain ⟨-, none, -⟩ := ok.of_exclusive state
    exact absurd none held
  | stranded =>
    obtain ⟨none, -⟩ := ok.of_stranded state
    exact absurd none held

/-- The entry without one shared holder: FREE when none is left, and without that holder's pending upgrade. -/
def LeaseEntry.withoutHolder (e : LeaseEntry) (h : HostId) : LeaseEntry := { e with
  state := if HostSet.erase e.holders h = 0#4 then .free else e.state
  holders := HostSet.erase e.holders h
  upgrade := if e.upgrade = some h then none else e.upgrade }

theorem LeaseEntry.Ok.withoutHolder_scannable {e : LeaseEntry} (ok : e.Ok)
    (holder : HostSet.has e.holders h = true) : (e.withoutHolder h).Scannable := by
  have shared := ok.shared_of_holder holder
  obtain ⟨owner, -, transit, cause, waiters, upgrade⟩ := ok.of_shared shared
  refine ⟨ok.nodup, ok.present, ?_⟩
  by_cases left : HostSet.erase e.holders h = 0#4
  · have state : (e.withoutHolder h).state = .free := by simp [LeaseEntry.withoutHolder, left]
    rw [state]
    refine ⟨owner, left, ?_, transit, cause⟩
    simp only [LeaseEntry.withoutHolder]
    split
    · rfl
    · next other =>
      cases slot : e.upgrade with
      | none => rfl
      | some u =>
        have gone := (HostSet.eq_zero_iff _).mp left u
        rw [HostSet.has_erase, (upgrade u slot).1] at gone
        have same : u = h := by simpa using gone
        exact absurd (same ▸ slot) other
  · have state : (e.withoutHolder h).state = .shared := by simp [LeaseEntry.withoutHolder, left, shared]
    rw [state]
    refine ⟨owner, left, transit, cause, fun g w => ?_, fun g slot => ?_⟩
    · simp [LeaseEntry.withoutHolder, waiters g w]
    · simp only [LeaseEntry.withoutHolder] at slot ⊢
      split at slot
      · cases slot
      · next other =>
        have ne : g ≠ h := fun same => other (same ▸ slot)
        simp [(upgrade g slot).1, ne]

theorem LeaseEntry.withoutHolder_keeps (e : LeaseEntry) (h : HostId) : e.Keeps (e.withoutHolder h) := by
  refine ⟨rfl, rfl, fun x => ⟨?_, rfl⟩, fun _ x => x⟩
  simp only [LeaseEntry.withoutHolder] at x
  split at x
  · cases x
  · exact x

theorem LeaseEntry.withoutHolder_role {e : LeaseEntry} {g : HostId} (state : e.state ≠ .exclusive)
    (role : (e.withoutHolder h).hasRole g) : e.hasRole g ∧ (g = h → e.hasWaiter h) := by
  rcases role with holder | acts | waiter
  · have both : HostSet.has e.holders g = true ∧ ¬ g = h := by simpa [LeaseEntry.withoutHolder] using holder
    exact ⟨.inl both.1, fun same => absurd same both.2⟩
  · have was := ((LeaseEntry.acts_iff ..).mp acts).1
    simp only [LeaseEntry.withoutHolder] at was
    split at was
    · cases was
    · exact absurd was state
  · exact ⟨.inr (.inr waiter), fun same => same ▸ waiter⟩

/-- The state in which a shared holder has been dropped and the scan is still to run. -/
def holderDropped (l : LeaseId) (h : HostId) (s : State) : State :=
  (if (s.entry l).upgrade = some h then s.setWait h none else s).putEntry l ((s.entry l).withoutHolder h)

theorem dropHolder_eq (l : LeaseId) (h : HostId) (s : State) :
    dropHolder l h s = grantScan l (holderDropped l h s) := rfl

theorem holderDropped_entry (l : LeaseId) (h : HostId) (s : State) :
    (holderDropped l h s).entry l = (s.entry l).withoutHolder h := State.putEntry_entry_same ..

theorem holderDropped_atEntry (l : LeaseId) (h : HostId) (s : State) : AtEntry l s (holderDropped l h s) := by
  unfold holderDropped
  split
  · exact ((AtEntry.refl l s).setWait h none).put _
  · exact (AtEntry.refl l s).put _

theorem holderDropped_ok (ok : DirectoryOk s) (holder : HostSet.has (s.entry l).holders h = true) :
    DirectoryOkWith l LeaseEntry.Scannable (holderDropped l h s) := by
  have entryOk := ok.entry_ok l
  have shared := entryOk.shared_of_holder holder
  have scannable := entryOk.withoutHolder_scannable holder
  obtain ⟨-, -, -, -, apart, -⟩ := entryOk.of_shared shared
  have roles : ∀ g, ((s.entry l).withoutHolder h).hasRole g →
      (s.entry l).hasRole g ∨ (s.dir.joined.get g).isSome = true := fun g role =>
    .inl (LeaseEntry.withoutHolder_role (by simp [shared]) role).1
  unfold holderDropped
  split
  · next slot =>
    refine ok.rewrite_for h scannable roles (fun _ _ _ => Iff.rfl) (fun g ne => ?_)
      (.inl (endedWait_of_awaits ok (k := .upgrade) slot ?_ ?_))
    · simp [LeaseEntry.withoutHolder, slot, ne.symm]
    · intro waiter
      have := apart h waiter
      rw [holder] at this
      cases this
    · simp [LeaseEntry.withoutHolder, slot]
  · next slot => exact ok.rewrite rfl (by simp [LeaseEntry.withoutHolder, slot]) scannable roles

theorem dropHolder_step (holder : HostSet.has (s.entry l).holders h = true) : EntryStep l s (dropHolder l h s).1 := by
  rw [dropHolder_eq]
  refine (holderDropped_atEntry l h s).scan ?_ fun ok => holderDropped_ok ok holder
  rw [holderDropped_entry]
  exact LeaseEntry.withoutHolder_keeps _ h

/-- A dropped holder has no role left. -/
theorem dropHolder_no_role (ok : DirectoryOk s) (holder : HostSet.has (s.entry l).holders h = true) :
    ¬ ((dropHolder l h s).1.entry l).hasRole h := by
  have shared := (ok.entry_ok l).shared_of_holder holder
  obtain ⟨-, -, -, -, apart, -⟩ := (ok.entry_ok l).of_shared shared
  intro role
  rw [dropHolder_eq] at role
  have before := grantScan_role (holderDropped_ok ok holder).here role
  rw [holderDropped_entry] at before
  have waiter := (LeaseEntry.withoutHolder_role (by simp [shared]) before).2 rfl
  have := apart h waiter
  rw [holder] at this
  cases this

end

/-! ## A wait given up (R46, R47, R53, R69) -/

section
variable {l : LeaseId} {h : HostId} {s : State}

theorem LeaseEntry.dropWaiter_hasWaiter {e : LeaseEntry} {g : HostId} :
    (e.dropWaiter h).hasWaiter g ↔ e.hasWaiter g ∧ g ≠ h := by
  simp only [LeaseEntry.hasWaiter, LeaseEntry.dropWaiter, List.mem_map, List.mem_filter, decide_eq_true_eq]
  constructor
  · rintro ⟨w, ⟨mem, ne⟩, rfl⟩
    exact ⟨⟨w, mem, rfl⟩, ne⟩
  · rintro ⟨⟨w, mem, rfl⟩, ne⟩
    exact ⟨w, ⟨mem, ne⟩, rfl⟩

theorem LeaseEntry.dropWaiter_nodup {e : LeaseEntry} (nodup : (e.waiters.map Prod.fst).Nodup) :
    ((e.dropWaiter h).waiters.map Prod.fst).Nodup :=
  nodup.sublist (List.filter_sublist.map Prod.fst)

theorem LeaseEntry.Ok.dropWaiter {e : LeaseEntry} (ok : e.Ok) (h : HostId) : (e.dropWaiter h).Ok := by
  refine ⟨LeaseEntry.dropWaiter_nodup ok.nodup, ok.present, ?_⟩
  have keep : ∀ g, (e.dropWaiter h).hasWaiter g → e.hasWaiter g := fun g w => (LeaseEntry.dropWaiter_hasWaiter.mp w).1
  show match e.state with | .free => _ | .shared => _ | .exclusive => _ | .stranded => _
  cases state : e.state with
  | free =>
    obtain ⟨owner, holders, waiters, rest⟩ := ok.of_free state
    exact ⟨owner, holders, by simp [LeaseEntry.dropWaiter, waiters], rest⟩
  | shared =>
    obtain ⟨owner, holders, transit, cause, waiters, upgrade⟩ := ok.of_shared state
    exact ⟨owner, holders, transit, cause, fun g w => waiters g (keep g w), upgrade⟩
  | exclusive =>
    obtain ⟨owner, holders, slot, cause, waiters⟩ := ok.of_exclusive state
    exact ⟨owner, holders, slot, cause, fun g w => waiters g (keep g w)⟩
  | stranded => exact ok.of_stranded state

theorem LeaseEntry.dropWaiter_role {e : LeaseEntry} {g : HostId} (role : (e.dropWaiter h).hasRole g) :
    e.hasRole g := role.imp id fun rest => rest.imp id fun w => (LeaseEntry.dropWaiter_hasWaiter.mp w).1

theorem LeaseEntry.awaits_of_hasWaiter {e : LeaseEntry} (waiter : e.hasWaiter h) : ∃ k, e.Awaits h k :=
  ((e.hasWaiter_iff h).mp waiter).elim (fun a => ⟨_, a⟩) fun a => ⟨_, a⟩

/-- The state in which a claim wait has been dropped and the scan is still to run. -/
def claimDropped (l : LeaseId) (h : HostId) (s : State) : State :=
  (s.putEntry l ((s.entry l).dropWaiter h)).setWait h none

theorem claimDropped_entry (l : LeaseId) (h : HostId) (s : State) :
    (claimDropped l h s).entry l = (s.entry l).dropWaiter h := by simp [claimDropped]

theorem claimDropped_atEntry (l : LeaseId) (h : HostId) (s : State) : AtEntry l s (claimDropped l h s) :=
  ((AtEntry.refl l s).put _).setWait h none

theorem dropClaimWait_eq (l : LeaseId) (h : HostId) (s : State) : dropClaimWait l h s =
    if (s.entry l).state = .stranded then (claimDropped l h s, 0) else grantScan l (claimDropped l h s) := by
  unfold dropClaimWait
  dsimp only
  rw [← claimDropped, claimDropped_entry]
  rfl

theorem claimDropped_ok (ok : DirectoryOk s) (waiter : (s.entry l).hasWaiter h) : DirectoryOk (claimDropped l h s) := by
  obtain ⟨k, awaits⟩ := LeaseEntry.awaits_of_hasWaiter waiter
  have slot := ((directoryOkWith_ok l s).mpr ok).no_upgrade_of_waiter waiter
  rw [← directoryOkWith_ok l]
  exact ok.rewrite_for h ((ok.entry_ok l).dropWaiter h) (fun g role => .inl (LeaseEntry.dropWaiter_role role))
    (fun g ne m => by simp [LeaseEntry.mem_dropWaiter, ne]) (fun _ _ => Iff.rfl)
    (.inl (endedWait_of_awaits ok awaits (fun w => (LeaseEntry.dropWaiter_hasWaiter.mp w).2 rfl) slot))

theorem dropClaimWait_step (ok : DirectoryOk s → (s.entry l).hasWaiter h) : EntryStep l s (dropClaimWait l h s).1 := by
  have kept : (s.entry l).Keeps ((claimDropped l h s).entry l) := by
    rw [claimDropped_entry]
    exact ⟨rfl, rfl, fun x => ⟨x, rfl⟩, fun _ x => x⟩
  have sound : DirectoryOk s → DirectoryOk (claimDropped l h s) := fun k => claimDropped_ok k (ok k)
  rw [dropClaimWait_eq]
  split
  · exact ⟨claimDropped_atEntry l h s, kept.law, sound⟩
  · refine (claimDropped_atEntry l h s).scan kept fun k => ?_
    obtain ⟨others, here, waits, roles⟩ := (directoryOkWith_ok l _).mpr (sound k)
    exact ⟨others, here.scannable, waits, roles⟩

/-- A host whose claim wait is dropped, and which had no other role, has none left. -/
theorem dropClaimWait_no_role (ok : DirectoryOk s) (holder : HostSet.has (s.entry l).holders h = false)
    (acts : (s.entry l).acts h = false) : ¬ ((dropClaimWait l h s).1.entry l).hasRole h := by
  have none : ¬ ((claimDropped l h s).entry l).hasRole h := by
    rw [claimDropped_entry]
    rintro (x | x | x)
    · rw [show ((s.entry l).dropWaiter h).holders = (s.entry l).holders from rfl, holder] at x
      cases x
    · rw [show ((s.entry l).dropWaiter h).acts h = (s.entry l).acts h from rfl, acts] at x
      cases x
    · exact (LeaseEntry.dropWaiter_hasWaiter.mp x).2 rfl
  rw [dropClaimWait_eq]
  split
  · exact none
  · refine fun role => none (grantScan_role ?_ role)
    rw [claimDropped_entry]
    exact ((ok.entry_ok l).dropWaiter h).scannable

/-- The state in which a pending upgrade has been dropped and the scan is still to run. -/
def upgradeDropped (l : LeaseId) (h : HostId) (s : State) : State :=
  (s.putEntry l { s.entry l with upgrade := none }).setWait h none

theorem upgradeDropped_entry (l : LeaseId) (h : HostId) (s : State) :
    (upgradeDropped l h s).entry l = { s.entry l with upgrade := none } := by simp [upgradeDropped]

theorem dropUpgrade_eq (l : LeaseId) (h : HostId) (s : State) : dropUpgrade l h s =
    if (s.entry l).state = .stranded then (upgradeDropped l h s, 0) else grantScan l (upgradeDropped l h s) := by
  unfold dropUpgrade
  dsimp only
  rw [← upgradeDropped, upgradeDropped_entry]

theorem LeaseEntry.Ok.without_upgrade {e : LeaseEntry} (ok : e.Ok) : LeaseEntry.Ok { e with upgrade := none } := by
  refine ⟨ok.nodup, ok.present, ?_⟩
  show match e.state with | .free => _ | .shared => _ | .exclusive => _ | .stranded => _
  cases state : e.state with
  | free =>
    obtain ⟨owner, holders, waiters, -, rest⟩ := ok.of_free state
    exact ⟨owner, holders, waiters, rfl, rest⟩
  | shared =>
    obtain ⟨owner, holders, transit, cause, waiters, -⟩ := ok.of_shared state
    exact ⟨owner, holders, transit, cause, waiters, fun g slot => by cases slot⟩
  | exclusive =>
    obtain ⟨owner, holders, -, rest⟩ := ok.of_exclusive state
    exact ⟨owner, holders, rfl, rest⟩
  | stranded =>
    obtain ⟨holders, -, rest⟩ := ok.of_stranded state
    exact ⟨holders, rfl, rest⟩

theorem upgradeDropped_ok (ok : DirectoryOk s) (slot : (s.entry l).upgrade = some h) :
    DirectoryOk (upgradeDropped l h s) := by
  have okWith := (directoryOkWith_ok l s).mpr ok
  rw [← directoryOkWith_ok l]
  refine ok.rewrite_for h (ok.entry_ok l).without_upgrade (fun g role => .inl role) (fun _ _ _ => Iff.rfl)
    (fun g ne => ?_) (.inl (endedWait_of_awaits ok (k := .upgrade) slot
      (fun w => okWith.no_upgrade_of_waiter w slot) (by simp)))
  simp [slot, ne.symm]

theorem dropUpgrade_step (ok : DirectoryOk s → (s.entry l).upgrade = some h) :
    EntryStep l s (dropUpgrade l h s).1 := by
  have kept : (s.entry l).Keeps ((upgradeDropped l h s).entry l) := by
    rw [upgradeDropped_entry]
    exact ⟨rfl, rfl, fun x => ⟨x, rfl⟩, fun _ x => x⟩
  have at_entry : AtEntry l s (upgradeDropped l h s) := ((AtEntry.refl l s).put _).setWait h none
  have sound : DirectoryOk s → DirectoryOk (upgradeDropped l h s) := fun k => upgradeDropped_ok k (ok k)
  rw [dropUpgrade_eq]
  split
  · exact ⟨at_entry, kept.law, sound⟩
  · refine at_entry.scan kept fun k => ?_
    obtain ⟨others, here, waits, roles⟩ := (directoryOkWith_ok l _).mpr (sound k)
    exact ⟨others, here.scannable, waits, roles⟩

end

end Sys2Proof.Machine
end

section
/-! PROOF. Reads of entries, rebuilds, stranding, and the store's questions: each keeps the directory sound, and what
the store asks changes only entries in transit (R128 to R131, R155 to R161). -/

namespace Sys2Proof.Machine

open Sys2Proof

/-! ## A read of an entry (R28, R158) -/

section
variable {l : LeaseId} {s : State}

/-- One step of a rebuild: a host whose wait record names the lease is told that its wait has ended. -/
def endRebuiltWait (l : LeaseId) (s : State) (h : HostId) : State :=
  match s.wait h with
  | some r => if r.lease = l then (s.setWait h none).offerDir h (.stranded l none .integrity) else s
  | none => s

theorem rebuildEntry_eq (l : LeaseId) (s : State) :
    rebuildEntry l s = allHosts.foldl (endRebuiltWait l) (s.putEntry l LeaseEntry.rebuilt) := rfl

theorem endRebuiltWait_atEntry (l : LeaseId) (s : State) (h : HostId) : AtEntry l s (endRebuiltWait l s h) := by
  unfold endRebuiltWait
  split
  · split
    · exact ((AtEntry.refl l s).setWait h none).offerDir h _
    · exact .refl l s
  · exact .refl l s

theorem endRebuiltWait_entry (l l' : LeaseId) (s : State) (h : HostId) : (endRebuiltWait l s h).entry l' = s.entry l' := by
  unfold endRebuiltWait
  split
  · split <;> rfl
  · rfl

theorem endRebuiltWait_wait (l : LeaseId) (s : State) (h g : HostId) : (endRebuiltWait l s h).wait g =
    if h = g ∧ (s.wait g).map WaitRecord.lease = some l then none else s.wait g := by
  unfold endRebuiltWait
  rcases eq_or_ne h g with rfl | ne
  · cases wait : s.wait h with
    | none => simp [wait]
    | some r =>
      by_cases on : r.lease = l
      · simp [on]
      · simp [on, wait]
  · simp only [ne, false_and, if_false]
    split
    · split
      · rw [State.offerDir_wait, State.setWait_wait_ne _ _ _ _ ne]
      · rfl
    · rfl

theorem foldl_endRebuiltWait_wait (l : LeaseId) (hs : List HostId) (s : State) (g : HostId) :
    (hs.foldl (endRebuiltWait l) s).wait g =
      if g ∈ hs ∧ (s.wait g).map WaitRecord.lease = some l then none else s.wait g := by
  induction hs generalizing s with
  | nil => simp
  | cons h hs ih =>
    rw [List.foldl_cons, ih, endRebuiltWait_wait]
    by_cases on : (s.wait g).map WaitRecord.lease = some l
    · rcases eq_or_ne h g with rfl | ne
      · simp [on]
      · simp [on, ne, ne.symm]
    · simp [on]

theorem rebuildEntry_entry (l : LeaseId) (s : State) : (rebuildEntry l s).entry l = LeaseEntry.rebuilt := by
  rw [rebuildEntry_eq, foldl_keeps (fun s => s.entry l) (endRebuiltWait_entry l l), State.putEntry_entry_same]

theorem rebuildEntry_wait (l : LeaseId) (s : State) (g : HostId) : (rebuildEntry l s).wait g =
    if (s.wait g).map WaitRecord.lease = some l then none else s.wait g := by
  rw [rebuildEntry_eq, foldl_endRebuiltWait_wait]
  simp [allHosts]

theorem rebuildEntry_atEntry (l : LeaseId) (s : State) : AtEntry l s (rebuildEntry l s) :=
  ((AtEntry.refl l s).put _).trans (.foldl (endRebuiltWait_atEntry l) _ _)

theorem LeaseEntry.rebuilt_ok : LeaseEntry.rebuilt.Ok := by
  refine ⟨List.nodup_nil, Bool.noConfusion, rfl, rfl, rfl, rfl, ?_⟩
  simp [LeaseEntry.rebuilt]

theorem LeaseEntry.rebuilt_no_role (h : HostId) : ¬ LeaseEntry.rebuilt.hasRole h := by
  simp [LeaseEntry.hasRole, LeaseEntry.hasWaiter, LeaseEntry.rebuilt, LeaseEntry.acts]

theorem rebuildEntry_ok (ok : DirectoryOk s) : DirectoryOk (rebuildEntry l s) := by
  have at_entry := rebuildEntry_atEntry l s
  have okWith := (directoryOkWith_ok l s).mpr ok
  rw [← directoryOkWith_ok l]
  refine okWith.update at_entry.others at_entry.served.dirJoined at_entry.served.departing ?_ (fun g role => ?_) fun g => ?_
  · rw [rebuildEntry_entry]
    exact LeaseEntry.rebuilt_ok
  · rw [rebuildEntry_entry] at role
    exact absurd role (LeaseEntry.rebuilt_no_role g)
  · have none : ∀ k, ¬ ((rebuildEntry l s).entry l).Awaits g k := by
      rw [rebuildEntry_entry]
      exact LeaseEntry.not_awaits (fun w => LeaseEntry.rebuilt_no_role g (.inr (.inr w))) (by simp [LeaseEntry.rebuilt])
    by_cases on : (s.wait g).map WaitRecord.lease = some l
    · refine .inr (.inl ⟨fun x key => ?_, State.waitKey_of_none ?_, none⟩)
      · obtain ⟨r, wait, rfl⟩ := Option.map_eq_some_iff.mp key
        rw [wait] at on
        exact Option.some.inj on
      · rw [rebuildEntry_wait, if_pos on]
    · refine .inl ⟨State.waitKey_of_wait ?_, fun k => iff_of_false (none k) fun awaits => on ?_⟩
      · rw [rebuildEntry_wait, if_neg on]
      · obtain ⟨r, wait, names⟩ := Option.map_eq_some_iff.mp (okWith.key awaits)
        cases names
        rw [wait]
        rfl

theorem dirFinding_dir (s : State) (l : LeaseId) : (s.dirFinding l).dir = s.dir := by
  refine foldl_keeps State.dir (fun s g => ?_) allHosts s.raiseUncorrected
  split <;> rfl

/-- A read of an entry that finds no uncorrectable error. -/
theorem readEntry_false {t : State} (read : readEntry l s = (false, t)) :
    AtEntry l s t ∧ (∀ l', t.entry l' = s.entry l') ∧ (∀ g, t.wait g = s.wait g)
      ∧ (DirectoryOk s → DirectoryOk t) := by
  have same : ∀ l', t.entry l' = s.entry l' := fun l' => readEntry_entry read
  have work := readEntry_work l s
  have store := readEntry_store l s
  rw [read] at work store
  have waits : ∀ g, t.wait g = s.wait g := fun g => by
    rcases readEntry_cases l s with ⟨-, r⟩ | ⟨-, r⟩ | ⟨-, r⟩ <;> rw [read] at r
    · rw [(Prod.mk.inj r).2]
    · rw [(Prod.mk.inj r).2]
      rfl
    · cases (Prod.mk.inj r).1
  exact ⟨⟨work.served, store, fun l' _ => same l'⟩, same, waits, fun ok =>
    ok.congr same (fun g => State.waitKey_of_wait (waits g)) work.dirJoined work.departing⟩

/-- A read of an entry that rebuilds it. -/
theorem readEntry_true {t : State} (read : readEntry l s = (true, t)) :
    AtEntry l s t ∧ t.entry l = LeaseEntry.rebuilt ∧ (DirectoryOk s → DirectoryOk t) := by
  have rebuilt : t = (rebuildEntry l s).dirFinding l := by
    rcases readEntry_cases l s with ⟨-, r⟩ | ⟨-, r⟩ | ⟨-, r⟩ <;> rw [read] at r
    · cases (Prod.mk.inj r).1
    · cases (Prod.mk.inj r).1
    · exact (Prod.mk.inj r).2
  rw [rebuilt]
  have dir := dirFinding_dir (rebuildEntry l s) l
  have finding : AtEntry l (rebuildEntry l s) ((rebuildEntry l s).dirFinding l) :=
    ⟨(dirFinding_work _ l).served, dirFinding_store _ l, fun l' _ => State.entry_of_dir dir l'⟩
  refine ⟨(rebuildEntry_atEntry l s).trans finding, ?_, fun ok => ?_⟩
  · rw [State.entry_of_dir dir, rebuildEntry_entry]
  · exact (rebuildEntry_ok (l := l) ok).of_dir dir

end

/-! ## A lease stranded (R67, R73) -/

section
variable {l : LeaseId} {s : State}

/-- A stranded entry: its owner, generation, value and waiters are kept. -/
def LeaseEntry.strand (e : LeaseEntry) (cause : StrandedCause) : LeaseEntry :=
  { e with state := .stranded, cause := some cause, transit := none, ownerPresent := false }

theorem offerStranded_dir (l : LeaseId) (o : Option HostId) (c : StrandedCause) (s : State) :
    (offerStranded l o c s).dir = s.dir :=
  foldl_keeps State.dir (fun s (w : HostId × LeaseMode) => State.offerDir_dir s w.1 _) _ _

theorem strandEntry_dir (l : LeaseId) (cause : StrandedCause) (s : State) :
    (strandEntry l cause s).dir = (s.putEntry l ((s.entry l).strand cause)).dir := offerStranded_dir ..

theorem strandEntry_entry (l : LeaseId) (cause : StrandedCause) (s : State) :
    (strandEntry l cause s).entry l = (s.entry l).strand cause := by
  rw [State.entry_of_dir (strandEntry_dir l cause s), State.putEntry_entry_same]

theorem strandEntry_atEntry (l : LeaseId) (cause : StrandedCause) (s : State) : AtEntry l s (strandEntry l cause s) :=
  ⟨(strandEntry_work l cause s).served, strandEntry_store l cause s, fun l' ne => by
    rw [State.entry_of_dir (strandEntry_dir l cause s), State.putEntry_entry_ne _ _ _ _ ne.symm]⟩

theorem LeaseEntry.strand_role {e : LeaseEntry} {cause : StrandedCause} {g : HostId}
    (role : (e.strand cause).hasRole g) : HostSet.has e.holders g = true ∨ e.hasWaiter g := by
  rcases role with holder | acts | waiter
  · exact .inl holder
  · cases ((LeaseEntry.acts_iff ..).mp acts).1
  · exact .inr waiter

theorem LeaseEntry.Ok.strand {e : LeaseEntry} (ok : e.Ok) (exclusive : e.state = .exclusive) {cause : StrandedCause}
    (other : cause ≠ .integrity) : (e.strand cause).Ok := by
  obtain ⟨owner, holders, slot, -, -⟩ := ok.of_exclusive exclusive
  refine ⟨ok.nodup, Bool.noConfusion, holders, slot, rfl, rfl, fun ownerless => ?_, fun cause => ?_⟩
  · rw [show e.owner = none from ownerless] at owner
    cases owner
  · exact absurd (Option.some.inj cause) other

theorem strandEntry_step {cause : StrandedCause} (other : cause ≠ .integrity)
    (exclusive : DirectoryOk s → (s.entry l).state = .exclusive) : EntryStep l s (strandEntry l cause s) := by
  refine ⟨strandEntry_atEntry l cause s, ?_, fun ok => ?_⟩
  · rw [strandEntry_entry]
    exact LeaseEntry.Keeps.law ⟨rfl, rfl, nofun, nofun⟩
  · refine DirectoryOk.of_dir ?_ (strandEntry_dir l cause s)
    rw [← directoryOkWith_ok l]
    exact ok.rewrite rfl rfl ((ok.entry_ok l).strand (exclusive ok) other) fun g role =>
      .inl ((LeaseEntry.strand_role role).imp id .inr)

end

/-! ## What the store's questions change -/

/-- What the store's events can make of an entry: it stays, is rebuilt, or was in transit and its transfer fails. -/
def LeaseEntry.MayFail (e e' : LeaseEntry) : Prop :=
  e' = e ∨ e' = LeaseEntry.rebuilt ∨ (e.transit.isSome = true ∧ e' = e.failed)

theorem LeaseEntry.failed_transit (e : LeaseEntry) : e.failed.transit = none := by
  unfold LeaseEntry.failed
  split <;> rfl

theorem LeaseEntry.MayFail.trans {e e' e'' : LeaseEntry} (a : e.MayFail e') (b : e'.MayFail e'') : e.MayFail e'' := by
  rcases b with same | rebuilt | ⟨transit, failed⟩
  · rw [same]
    exact a
  · exact .inr (.inl rebuilt)
  · rcases a with same | rebuilt | ⟨-, failed'⟩
    · rw [same] at transit failed
      exact .inr (.inr ⟨transit, failed⟩)
    · rw [rebuilt] at transit
      cases transit
    · rw [failed', LeaseEntry.failed_transit] at transit
      cases transit

/-- No transit arises. -/
theorem LeaseEntry.MayFail.transit {e e' : LeaseEntry} (a : e.MayFail e') {x : Transit} (arises : e'.transit = some x) :
    e.transit = some x := by
  rcases a with same | rebuilt | ⟨-, failed⟩
  · rwa [same] at arises
  · rw [rebuilt] at arises
    cases arises
  · rw [failed, LeaseEntry.failed_transit] at arises
    cases arises

/-- Work of the directory that the store's events bring about: each entry stays, is rebuilt, or was in transit and its
transfer fails. -/
structure TransferWork (s t : State) : Prop where
  served : Served s t
  store : t.store = s.store
  entries : ∀ l, (s.entry l).MayFail (t.entry l)
  ok : DirectoryOk s → DirectoryOk t

section
variable {s t u : State}

theorem TransferWork.refl (s : State) : TransferWork s s := ⟨.refl s, rfl, fun _ => .inl rfl, id⟩

theorem TransferWork.trans (a : TransferWork s t) (b : TransferWork t u) : TransferWork s u :=
  ⟨a.served.trans b.served, b.store.trans a.store, fun l => (a.entries l).trans (b.entries l), fun ok => b.ok (a.ok ok)⟩

theorem TransferWork.foldl {α : Type} {f : State → α → State} (each : ∀ s x, TransferWork s (f s x)) (xs : List α)
    (s : State) : TransferWork s (xs.foldl f s) := by
  induction xs generalizing s with
  | nil => exact .refl s
  | cons x xs ih => exact (each s x).trans (ih (f s x))

theorem TransferWork.transit (w : TransferWork s t) {l : LeaseId} {x : Transit} (e : (t.entry l).transit = some x) :
    (s.entry l).transit = some x := (w.entries l).transit e

theorem readEntry_transferWork (l : LeaseId) (s : State) : TransferWork s (readEntry l s).2 := by
  rcases read : readEntry l s with ⟨_ | _, t⟩
  · obtain ⟨at_entry, same, -, ok⟩ := readEntry_false read
    exact ⟨at_entry.served, at_entry.store, fun l' => .inl (same l'), ok⟩
  · obtain ⟨at_entry, rebuilt, ok⟩ := readEntry_true read
    refine ⟨at_entry.served, at_entry.store, fun l' => ?_, ok⟩
    rcases eq_or_ne l' l with rfl | ne
    · exact .inr (.inl rebuilt)
    · exact .inl (at_entry.others l' ne)

theorem LeaseEntry.Ok.exclusive_of_transit {e : LeaseEntry} (ok : e.Ok) (transit : e.transit.isSome = true) :
    e.state = .exclusive := by
  cases state : e.state with
  | exclusive => rfl
  | free =>
    obtain ⟨-, -, -, -, none, -⟩ := ok.of_free state
    rw [none] at transit
    cases transit
  | shared =>
    obtain ⟨-, -, none, -⟩ := ok.of_shared state
    rw [none] at transit
    cases transit
  | stranded =>
    obtain ⟨-, -, none, -⟩ := ok.of_stranded state
    rw [none] at transit
    cases transit

theorem failEntry_entry (l : LeaseId) (s : State) : (failEntry l s).2.entry l = (s.entry l).failed := by
  rw [failEntry_eq, State.entry_of_dir (LeaseEntry.tellStranded_dir ..), State.putEntry_entry_same]

theorem failEntry_atEntry (l : LeaseId) (s : State) : AtEntry l s (failEntry l s).2 :=
  ⟨(failEntry_work l s).served, failEntry_store l s, fun l' ne => by
    rw [State.entry, failEntry_entries_ne s ne.symm, State.entry]⟩

theorem failEntry_ok {l : LeaseId} (ok : DirectoryOk s) (transit : (s.entry l).transit.isSome = true) :
    DirectoryOk (failEntry l s).2 := by
  have exclusive := (ok.entry_ok l).exclusive_of_transit transit
  unfold failEntry
  dsimp only
  split
  · next present =>
    rw [← directoryOkWith_ok l]
    refine ok.rewrite rfl rfl ?_ fun g role => .inl (role.imp id fun rest => rest.imp (fun acts => ?_) id)
    · refine ⟨(ok.entry_ok l).nodup, Bool.noConfusion, ?_⟩
      simp only [exclusive]
      exact (ok.entry_ok l).of_exclusive exclusive
    · obtain ⟨state, owner, -⟩ := (LeaseEntry.acts_iff ..).mp acts
      exact (LeaseEntry.acts_iff ..).mpr ⟨state, owner, .inr present⟩
  · exact (strandEntry_step (cause := .handoff) nofun fun _ => exclusive).ok ok

theorem failEntry_transferWork {l : LeaseId} (transit : (s.entry l).transit.isSome = true) :
    TransferWork s (failEntry l s).2 := by
  have at_entry := failEntry_atEntry l s
  refine ⟨at_entry.served, at_entry.store, fun l' => ?_, fun ok => failEntry_ok ok transit⟩
  rcases eq_or_ne l' l with rfl | ne
  · exact .inr (.inr ⟨transit, failEntry_entry l' s⟩)
  · exact .inl (at_entry.others l' ne)

theorem LeaseEntry.transit_of_carriedIn {e : LeaseEntry} {d : DescId} (carried : e.carriedIn d = true) :
    e.transit.isSome = true := by
  obtain ⟨x, transit, -⟩ := Option.map_eq_some_iff.mp ((LeaseEntry.carriedIn_iff ..).mp carried)
  rw [transit]
  rfl

theorem transferFailed_transferWork (l : LeaseId) (d : DescId) (s : State) :
    TransferWork s (transferFailed l d s).2 := by
  have work := readEntry_transferWork l s
  unfold transferFailed
  split
  · next read => rw [read] at work; exact work
  · next read =>
    rw [read] at work
    split
    · next carried => exact work.trans (failEntry_transferWork (LeaseEntry.transit_of_carriedIn carried))
    · exact work

theorem loseTransfer_transferWork (d : DescId) (s : State) (l : LeaseId) : TransferWork s (loseTransfer d s l) := by
  have work := readEntry_transferWork l s
  unfold loseTransfer
  split
  · next read => rw [read] at work; exact work
  · next read =>
    rw [read] at work
    split
    · next carried => exact work.trans (failEntry_transferWork (LeaseEntry.transit_of_carriedIn carried))
    · exact work

theorem transfersLost_transferWork (d : DescId) (s : State) : TransferWork s (transfersLost d s) :=
  .foldl (loseTransfer_transferWork d) allLeases s

theorem failCarried_transferWork (d : DescId) (m : Message) (s : State) : TransferWork s (failCarried d m s).2 := by
  unfold failCarried
  split
  · exact .refl s
  · exact transferFailed_transferWork ..

theorem readOptEntry_transferWork (l : Option LeaseId) (s : State) : TransferWork s (readOptEntry l s).2 := by
  cases l with
  | none => exact .refl s
  | some l => exact readEntry_transferWork l s

theorem openQuestion_transferWork (d : DescId) (m : Message) (s : State) : TransferWork s (openQuestion d m s).2 :=
  (readOptEntry_transferWork (m.fence.map Prod.fst) s).trans (readOptEntry_transferWork m.carried _)

end

/-! ## The descriptors that transits name -/

section
variable {s : State} {d : DescId}

theorem LeaseEntry.not_carriedIn_of_none {e : LeaseEntry} (none : e.transit = none) : e.carriedIn d = false := by
  simp [LeaseEntry.carriedIn, none]

theorem TransferWork.not_carriedIn {s t : State} (w : TransferWork s t) {l : LeaseId}
    (gone : (s.entry l).carriedIn d = false) : (t.entry l).carriedIn d = false := by
  rcases w.entries l with same | rebuilt | ⟨-, failed⟩
  · rwa [same]
  · rw [rebuilt]
    rfl
  · rw [failed]
    exact LeaseEntry.not_carriedIn_of_none (LeaseEntry.failed_transit _)

theorem transferFailed_not_carriedIn (l : LeaseId) (d : DescId) (s : State) :
    ((transferFailed l d s).2.entry l).carriedIn d = false := by
  unfold transferFailed
  split
  · next read =>
    dsimp only
    rw [(readEntry_true read).2.1]
    rfl
  · split
    · rw [failEntry_entry]
      exact LeaseEntry.not_carriedIn_of_none (LeaseEntry.failed_transit _)
    · next gone => exact Bool.not_eq_true _ ▸ gone

theorem loseTransfer_not_carriedIn (d : DescId) (s : State) (l : LeaseId) :
    ((loseTransfer d s l).entry l).carriedIn d = false := by
  unfold loseTransfer
  split
  · next read =>
    rw [(readEntry_true read).2.1]
    rfl
  · split
    · rw [failEntry_entry]
      exact LeaseEntry.not_carriedIn_of_none (LeaseEntry.failed_transit _)
    · next gone => exact Bool.not_eq_true _ ▸ gone

/-- After the loss of a descriptor no lease is carried in it. -/
theorem transfersLost_not_carriedIn (d : DescId) (s : State) (l : LeaseId) :
    ((transfersLost d s).entry l).carriedIn d = false := by
  have each : ∀ (ls : List LeaseId) (s : State), l ∈ ls → ((ls.foldl (loseTransfer d) s).entry l).carriedIn d = false := by
    intro ls
    induction ls with
    | nil => exact fun _ mem => absurd mem List.not_mem_nil
    | cons l' ls ih =>
      intro s mem
      rcases List.mem_cons.mp mem with rfl | mem
      · exact (TransferWork.foldl (loseTransfer_transferWork d) ls _).not_carriedIn (loseTransfer_not_carriedIn d s l)
      · exact ih _ mem
  exact each allLeases s (List.mem_finRange l)

end

end Sys2Proof.Machine
end

section
/-! PROOF. The commands of the lease directory: each is one step at one lease, which keeps the directory sound and
follows the law of generations. -/

namespace Sys2Proof.Machine

open Sys2Proof

/-! ## A step that reads its entry first -/

/-- One step of the directory at one lease, the read of the entry with it: the entry is rebuilt or follows the law. -/
structure LeaseStep (l : LeaseId) (s t : State) : Prop where
  at_entry : AtEntry l s t
  law : t.entry l = LeaseEntry.rebuilt ∨ (s.entry l).Law (t.entry l)
  ok : DirectoryOk s → DirectoryOk t

section
variable {l : LeaseId} {s t u : State}

theorem EntryStep.lease (a : EntryStep l s t) : LeaseStep l s t := ⟨a.at_entry, .inr a.law, a.ok⟩

theorem LeaseStep.refl (l : LeaseId) (s : State) : LeaseStep l s s := (EntryStep.refl l s).lease

theorem LeaseStep.reply (a : LeaseStep l s t) (h : HostId) (id : Nat) (st : Status) (ws : List Word) :
    LeaseStep l s (t.reply h id st ws) :=
  ⟨a.at_entry.reply h id st ws, a.law, fun ok => (a.ok ok).of_dir rfl⟩

theorem LeaseStep.of_read_true (read : readEntry l s = (true, t)) : LeaseStep l s t := by
  obtain ⟨at_entry, rebuilt, ok⟩ := readEntry_true read
  exact ⟨at_entry, .inl rebuilt, ok⟩

theorem LeaseStep.of_read_false (read : readEntry l s = (false, t)) (a : EntryStep l t u) : LeaseStep l s u := by
  obtain ⟨at_entry, same, -, ok⟩ := readEntry_false read
  exact ⟨at_entry.trans a.at_entry, .inr (same l ▸ a.law), fun k => a.ok (ok k)⟩

/-- An entry rewritten with no wait touched. -/
theorem EntryStep.put {e : LeaseEntry} (waiters : e.waiters = (s.entry l).waiters)
    (slot : e.upgrade = (s.entry l).upgrade) (law : (s.entry l).Law e) (ok : DirectoryOk s → e.Ok)
    (roles : DirectoryOk s → ∀ g, e.hasRole g → (s.entry l).hasRole g ∨ (s.dir.joined.get g).isSome = true) :
    EntryStep l s (s.putEntry l e) :=
  ⟨(AtEntry.refl l s).put e, by rwa [State.putEntry_entry_same], fun k =>
    (directoryOkWith_ok l _).mp (k.rewrite waiters slot (ok k) (roles k))⟩

end

/-! ## A wait begun (R44, R51) -/

section
variable {l : LeaseId} {h : HostId} {s : State} {e : LeaseEntry}

theorem begunWait_of_none {k₀ : WaitKind} {n : Option Nat} (idle : s.wait h = none)
    (awaits : ∀ k, e.Awaits h k ↔ k = k₀) :
    BegunWait l s ((s.putEntry l e).setWait h (some ⟨l, k₀, n⟩)) h := by
  refine ⟨State.waitKey_of_none idle, k₀, by simp [State.waitKey], fun k => ?_⟩
  rw [State.setWait_entry, State.putEntry_entry_same]
  exact awaits k

theorem DirectoryOk.not_awaits_of_idle (ok : DirectoryOk s) (idle : s.wait h = none) (k : WaitKind) :
    ¬ (s.entry l).Awaits h k := by
  intro awaits
  have key := ((directoryOkWith_ok l s).mpr ok).key awaits
  rw [State.waitKey_of_none idle] at key
  cases key

theorem DirectoryOk.not_waiter_of_idle (ok : DirectoryOk s) (idle : s.wait h = none) : ¬ (s.entry l).hasWaiter h := by
  intro waiter
  obtain ⟨k, awaits⟩ := LeaseEntry.awaits_of_hasWaiter waiter
  exact ok.not_awaits_of_idle idle k awaits

/-- A host that neither acts as owner nor is sent away is not the recorded owner of an EXCLUSIVE lease. -/
theorem LeaseEntry.owner_ne (away : e.sentAway h = false) (acts : e.acts h = false)
    (exclusive : e.state = .exclusive) : e.owner ≠ some h := by
  intro own
  simp only [LeaseEntry.sentAway, LeaseEntry.acts, exclusive, own, decide_true, Bool.true_and] at away acts
  cases transit : e.transit.isSome <;> cases present : e.ownerPresent <;> simp_all

/-- The entry with one more waiter at the tail of its list. -/
def LeaseEntry.queue (e : LeaseEntry) (h : HostId) (m : LeaseMode) : LeaseEntry := { e with waiters := e.waiters ++ [(h, m)] }

theorem LeaseEntry.queue_hasWaiter {m : LeaseMode} {g : HostId} :
    (e.queue h m).hasWaiter g ↔ e.hasWaiter g ∨ g = h := by
  simp [LeaseEntry.hasWaiter, LeaseEntry.queue]

theorem LeaseEntry.queue_awaits {m : LeaseMode} (none : ∀ k, ¬ e.Awaits h k) (k : WaitKind) :
    (e.queue h m).Awaits h k ↔ k = m.waitKind := by
  have shared : (h, .shared) ∉ e.waiters := none .claimShared
  have exclusive : (h, .exclusive) ∉ e.waiters := none .claimExclusive
  have slot : e.upgrade ≠ some h := none .upgrade
  cases k with
  | claimShared => cases m <;> simp [LeaseEntry.Awaits, LeaseEntry.queue, LeaseMode.waitKind, shared]
  | claimExclusive => cases m <;> simp [LeaseEntry.Awaits, LeaseEntry.queue, LeaseMode.waitKind, exclusive]
  | upgrade => cases m <;> simp [LeaseEntry.Awaits, LeaseEntry.queue, LeaseMode.waitKind, slot]

theorem LeaseEntry.Ok.queue (ok : e.Ok) {m : LeaseMode} (fresh : ¬ e.hasWaiter h)
    (away : e.sentAway h = false) (held : e.heldBy h = false) (state : e.state ≠ .free) : (e.queue h m).Ok := by
  rw [LeaseEntry.heldBy, Bool.or_eq_false_iff] at held
  refine ⟨?_, ok.present, ?_⟩
  · rw [show (e.queue h m).waiters = e.waiters ++ [(h, m)] from rfl, List.map_append, List.map_singleton,
      List.nodup_append_comm]
    exact List.nodup_cons.mpr ⟨fresh, ok.nodup⟩
  · show match e.state with | .free => _ | .shared => _ | .exclusive => _ | .stranded => _
    cases st : e.state with
    | free => exact absurd st state
    | shared =>
      obtain ⟨owner, holders, transit, cause, waiters, upgrade⟩ := ok.of_shared st
      refine ⟨owner, holders, transit, cause, fun g w => ?_, upgrade⟩
      rcases LeaseEntry.queue_hasWaiter.mp w with w | rfl
      · exact waiters g w
      · exact held.1
    | exclusive =>
      obtain ⟨owner, holders, slot, cause, waiters⟩ := ok.of_exclusive st
      refine ⟨owner, holders, slot, cause, fun g w => ?_⟩
      rcases LeaseEntry.queue_hasWaiter.mp w with w | rfl
      · exact waiters g w
      · exact LeaseEntry.owner_ne away held.2 st
    | stranded => exact ok.of_stranded st

/-! ## CLAIM (R29, R30) -/

variable (joined : (s.dir.joined.get h).isSome = true) (id : Nat)
include joined

theorem claimQueued_step (m : LeaseMode) (wait : Word) (idle : s.wait h = none)
    (away : (s.entry l).sentAway h = false) (held : (s.entry l).heldBy h = false)
    (state : (s.entry l).state ≠ .free) : EntryStep l s (claimQueued h id l m wait s) := by
  refine EntryStep.reply (t := (s.putEntry l ((s.entry l).queue h m)).setWait h
    (some ⟨l, m.waitKind, parseDeadline wait⟩)) ⟨((AtEntry.refl l s).put _).setWait h _, ?_, fun ok => ?_⟩ ..
  · rw [State.setWait_entry, State.putEntry_entry_same]
    exact LeaseEntry.Keeps.law ⟨rfl, rfl, fun x => ⟨x, rfl⟩, fun _ x => x⟩
  · have fresh := ok.not_waiter_of_idle idle (l := l)
    rw [← directoryOkWith_ok l]
    refine ok.rewrite_for h ((ok.entry_ok l).queue fresh away held state) (fun g role => ?_)
      (fun g ne m' => by simp [LeaseEntry.queue, ne]) (fun _ _ => Iff.rfl)
      (.inr (begunWait_of_none idle (LeaseEntry.queue_awaits (ok.not_awaits_of_idle idle))))
    rcases role with holder | acts | waiter
    · exact .inl (.inl holder)
    · exact .inl (.inr (.inl acts))
    · rcases LeaseEntry.queue_hasWaiter.mp waiter with w | rfl
      · exact .inl (.inr (.inr w))
      · exact .inr joined

theorem claimHeldUp_step (m : LeaseMode) (wait : Word) (st : Status) (ws : List Word)
    (free_to_wait : ¬ (wait ≠ 0#16 ∧ (s.wait h).isSome = true)) (away : (s.entry l).sentAway h = false)
    (held : (s.entry l).heldBy h = false) (state : (s.entry l).state ≠ .free) :
    EntryStep l s (claimHeldUp h id l m wait st ws s) := by
  unfold claimHeldUp
  split
  · exact (EntryStep.refl l s).reply ..
  · next waits =>
    have idle : s.wait h = none := by simpa [waits] using free_to_wait
    exact claimQueued_step joined id m wait idle away held state

/-- The entry of a lease granted SHARED to a host. -/
theorem claimShared_step {holders : HostSet}
    (held : ∀ g, HostSet.has holders g = true → HostSet.has (s.entry l).holders g = true ∨ g = h)
    (ok : DirectoryOk s → LeaseEntry.Ok { s.entry l with state := .shared, holders := holders }) :
    EntryStep l s (s.putEntry l { s.entry l with state := .shared, holders := holders }) := by
  refine .put rfl rfl (LeaseEntry.Keeps.law ⟨rfl, rfl, nofun, fun _ x => x⟩) ok fun _ g role => ?_
  rcases role with holder | acts | waiter
  · rcases held g holder with was | rfl
    · exact .inl (.inl was)
    · exact .inr joined
  · cases ((LeaseEntry.acts_iff ..).mp acts).1
  · exact .inl (.inr (.inr waiter))

theorem claimExclusive_step (free : (s.entry l).state = .free) :
    EntryStep l s (s.putEntry l ((s.entry l).enterExclusive h)) := by
  refine .put rfl rfl (.of_raised rfl rfl rfl fun _ x => x) (fun ok => ?_) fun _ g role => ?_
  · obtain ⟨-, -, waiters, slot, transit, cause⟩ := (ok.entry_ok l).of_free free
    refine ⟨(ok.entry_ok l).nodup, (ok.entry_ok l).present, rfl, rfl, slot, cause, fun g w => ?_⟩
    rw [LeaseEntry.hasWaiter, show ((s.entry l).enterExclusive h).waiters = (s.entry l).waiters from rfl, waiters] at w
    cases w
  · rcases role with holder | acts | waiter
    · simp [LeaseEntry.enterExclusive] at holder
    · obtain ⟨-, own, -⟩ := (LeaseEntry.acts_iff ..).mp acts
      exact .inr (Option.some.inj own ▸ joined)
    · exact .inl (.inr (.inr waiter))

theorem claimFreeShared_step (free : (s.entry l).state = .free) :
    EntryStep l s (s.putEntry l { s.entry l with state := .shared, holders := HostSet.single h }) := by
  refine claimShared_step joined (fun g holder => .inr (by simpa using holder)) fun ok => ?_
  obtain ⟨owner, -, waiters, slot, transit, cause⟩ := (ok.entry_ok l).of_free free
  refine ⟨(ok.entry_ok l).nodup, (ok.entry_ok l).present, owner, fun none => ?_, transit, cause, fun g w => ?_,
    fun g e => ?_⟩
  · have := (HostSet.eq_zero_iff _).mp none h
    simp at this
  · simp [LeaseEntry.hasWaiter, waiters] at w
  · rw [show (s.entry l).upgrade = some g from e] at slot
    cases slot

theorem claimMoreShared_step (shared : (s.entry l).state = .shared)
    (alone : (s.entry l).waiters = [] ∧ (s.entry l).upgrade = none) :
    EntryStep l s (s.putEntry l { s.entry l with holders := HostSet.insert (s.entry l).holders h }) := by
  have same : { s.entry l with holders := HostSet.insert (s.entry l).holders h }
      = { s.entry l with state := .shared, holders := HostSet.insert (s.entry l).holders h } := by rw [← shared]
  rw [same]
  refine claimShared_step joined (fun g holder => by simpa using holder) fun ok => ?_
  obtain ⟨owner, -, transit, cause, -, -⟩ := (ok.entry_ok l).of_shared shared
  refine ⟨(ok.entry_ok l).nodup, (ok.entry_ok l).present, owner, fun none => ?_, transit, cause, fun g w => ?_,
    fun g e => ?_⟩
  · have := (HostSet.eq_zero_iff _).mp none h
    simp at this
  · simp [LeaseEntry.hasWaiter, alone.1] at w
  · rw [show (s.entry l).upgrade = some g from e] at alone
    cases alone.2

theorem claimEntry_step (m : LeaseMode) (wait : Word) : EntryStep l s (claimEntry h id l m wait s) := by
  unfold claimEntry
  dsimp only
  split
  · exact (EntryStep.refl l s).reply ..
  · next away =>
    rw [Bool.not_eq_true] at away
    split
    · exact (EntryStep.refl l s).reply ..
    · next held =>
      rw [Bool.not_eq_true] at held
      split
      · exact (EntryStep.refl l s).reply ..
      · next free_to_wait =>
        have busy (st : Status) (ws : List Word) (state : (s.entry l).state ≠ .free) :=
          claimHeldUp_step joined id m wait st ws free_to_wait away held state
        split
        · next state => exact (claimFreeShared_step joined state).reply ..
        · next state => exact (claimExclusive_step joined state).reply ..
        · next state =>
          split
          · next alone => exact (claimMoreShared_step joined state alone).reply ..
          · exact busy _ _ (by simp [state])
        · next state => exact busy _ _ (by simp [state])
        · next state => exact busy _ _ (by simp [state])
        · next state => exact busy _ _ (by simp [state])

theorem claimTaken_step (lease mode wait : Word) : ∃ l, LeaseStep l s (claimTaken h id lease mode wait s) := by
  unfold claimTaken
  split
  · next l m _ _ =>
    refine ⟨l, ?_⟩
    split
    · next read => exact (LeaseStep.of_read_true read).reply ..
    · next read =>
      refine .of_read_false read (claimEntry_step ?_ id m wait)
      rw [(readEntry_false read).1.served.dirJoined]
      exact joined
  · exact ⟨0, (LeaseStep.refl 0 s).reply ..⟩

end

/-! ## The other commands that name a lease -/

section
variable {l : LeaseId} {h : HostId} {s : State} (id : Nat)

/-- A command that names a lease is a step at it when its work at the entry is. -/
theorem atLease_step {lease : Word} {work : LeaseId → State → State} (joined : (s.dir.joined.get h).isSome = true)
    (step : ∀ l t, (t.dir.joined.get h).isSome = true → EntryStep l t (work l t)) :
    ∃ l, LeaseStep l s (atLease h id lease work s) := by
  unfold atLease
  split
  · exact ⟨0, (LeaseStep.refl 0 s).reply ..⟩
  · next l _ =>
    refine ⟨l, ?_⟩
    split
    · next read => exact (LeaseStep.of_read_true read).reply ..
    · next read =>
      refine .of_read_false read (step l _ ?_)
      rw [(readEntry_false read).1.served.dirJoined]
      exact joined

/-- An owner's lease given up or made SHARED, before the scan. -/
theorem ownerGone_scan {e : LeaseEntry} (exclusive : e.state ≠ .exclusive) (waiters : e.waiters = (s.entry l).waiters)
    (slot : e.upgrade = (s.entry l).upgrade) (generation : e.generation = (s.entry l).generation)
    (value : e.value = (s.entry l).value) (transit : e.transit = (s.entry l).transit)
    (ok : DirectoryOk s → e.Scannable) (roles : ∀ g, e.hasRole g → (s.entry l).hasRole g) :
    EntryStep l s (grantScan l (s.putEntry l e)).1 := by
  refine ((AtEntry.refl l s).put e).scan ?_ fun k => k.rewrite waiters slot (ok k) fun g role => .inl (roles g role)
  rw [State.putEntry_entry_same]
  exact ⟨generation, value, fun x => absurd x exclusive, fun _ x => transit ▸ x⟩

theorem releaseEntry_step : EntryStep l s (releaseEntry h id l s) := by
  unfold releaseEntry
  dsimp only
  split
  · next acts =>
    obtain ⟨exclusive, -, -⟩ := (LeaseEntry.acts_iff ..).mp acts
    split
    · exact (EntryStep.refl l s).reply ..
    · next here =>
      refine EntryStep.reply ?_ ..
      refine ownerGone_scan nofun rfl rfl rfl rfl rfl (fun ok => ?_) fun g role => ?_
      · obtain ⟨-, holders, slot, cause, -⟩ := (ok.entry_ok l).of_exclusive exclusive
        exact ⟨(ok.entry_ok l).nodup, (ok.entry_ok l).present, rfl, holders, slot, by simpa using here, cause⟩
      · rcases role with holder | acts | waiter
        · exact .inl holder
        · cases ((LeaseEntry.acts_iff ..).mp acts).1
        · exact .inr (.inr waiter)
  · split
    · next holder => exact (dropHolder_step holder).reply ..
    · exact (EntryStep.refl l s).reply ..

theorem downgradeEntry_step : EntryStep l s (downgradeEntry h id l s) := by
  unfold downgradeEntry
  dsimp only
  split
  · exact (EntryStep.refl l s).reply ..
  · next acts =>
    rw [Bool.not_eq_true, Bool.not_eq_false'] at acts
    obtain ⟨exclusive, own, -⟩ := (LeaseEntry.acts_iff ..).mp acts
    split
    · exact (EntryStep.refl l s).reply ..
    · next here =>
      refine EntryStep.reply ?_ ..
      refine ownerGone_scan nofun rfl rfl rfl rfl rfl (fun ok => ?_) fun g role => ?_
      · obtain ⟨-, -, slot, cause, waiters⟩ := (ok.entry_ok l).of_exclusive exclusive
        refine ⟨(ok.entry_ok l).nodup, (ok.entry_ok l).present, rfl, fun none => ?_, by simpa using here, cause,
          fun g w => ?_, fun g e => ?_⟩
        · have := (HostSet.eq_zero_iff _).mp none h
          simp at this
        · have ne : g ≠ h := fun same => waiters g w (same ▸ own)
          simp [ne]
        · rw [show (s.entry l).upgrade = some g from e] at slot
          cases slot
      · rcases role with holder | acts' | waiter
        · have same : g = h := by simpa using holder
          exact .inr (.inl (same ▸ acts))
        · cases ((LeaseEntry.acts_iff ..).mp acts').1
        · exact .inr (.inr waiter)

theorem queryEntry_step : EntryStep l s (queryEntry h id l s) := (EntryStep.refl l s).reply ..

/-! ## UPGRADE (R49, R50, R51) -/

/-- The only holder of a lease has nobody's upgrade pending over it. -/
theorem LeaseEntry.Ok.no_upgrade_of_sole {e : LeaseEntry} (ok : e.Ok) (sole : e.holders = HostSet.single h) :
    e.state = .shared ∧ e.upgrade = none := by
  have shared := ok.shared_of_holder (h := h) (by simp [sole])
  refine ⟨shared, ?_⟩
  obtain ⟨-, -, -, -, -, upgrade⟩ := ok.of_shared shared
  cases slot : e.upgrade with
  | none => rfl
  | some u =>
    obtain ⟨holder, others⟩ := upgrade u slot
    have same : u = h := by simpa [sole] using holder
    exact absurd (same ▸ sole) others

theorem soleUpgrade_step (sole : (s.entry l).holders = HostSet.single h) :
    EntryStep l s (s.putEntry l ((s.entry l).enterExclusive h)) := by
  refine .put rfl rfl (.of_raised rfl rfl rfl fun _ x => x) (fun ok => ?_) fun ok g role => .inl ?_
  · obtain ⟨shared, slot⟩ := (ok.entry_ok l).no_upgrade_of_sole sole
    obtain ⟨-, -, -, cause, waiters, -⟩ := (ok.entry_ok l).of_shared shared
    refine ⟨(ok.entry_ok l).nodup, (ok.entry_ok l).present, rfl, rfl, slot, cause, fun g w own => ?_⟩
    have holder := waiters g w
    rw [sole, HostSet.has_single, decide_eq_false_iff_not] at holder
    exact holder (Option.some.inj own).symm
  · rcases role with holder | acts | waiter
    · simp [LeaseEntry.enterExclusive] at holder
    · obtain ⟨-, own, -⟩ := (LeaseEntry.acts_iff ..).mp acts
      exact .inl (by simp [sole, Option.some.inj own])
    · exact .inr (.inr waiter)

theorem pendingUpgrade_step {n : Option Nat} (holder : HostSet.has (s.entry l).holders h = true)
    (others : (s.entry l).holders ≠ HostSet.single h) (idle : s.wait h = none)
    (open_slot : (s.entry l).upgrade.filter (fun u => u ≠ h) = none) :
    EntryStep l s ((s.putEntry l { s.entry l with upgrade := some h }).setWait h (some ⟨l, .upgrade, n⟩)) := by
  refine ⟨((AtEntry.refl l s).put _).setWait h _, ?_, fun ok => ?_⟩
  · rw [State.setWait_entry, State.putEntry_entry_same]
    exact LeaseEntry.Keeps.law ⟨rfl, rfl, fun x => ⟨x, rfl⟩, fun _ x => x⟩
  · have none := ok.not_awaits_of_idle idle (l := l)
    have empty : (s.entry l).upgrade = Option.none := by
      cases slot : (s.entry l).upgrade with
      | none => rfl
      | some u =>
        rw [slot] at open_slot
        have same : u = h := by simpa [Option.filter] using open_slot
        exact absurd (same ▸ slot) (none .upgrade)
    have shared := (ok.entry_ok l).shared_of_holder holder
    obtain ⟨owner, held, transit, cause, waiters, -⟩ := (ok.entry_ok l).of_shared shared
    rw [← directoryOkWith_ok l]
    refine ok.rewrite_for h ?_ (fun g role => .inl role) (fun _ _ _ => Iff.rfl) (fun g ne => by simp [empty, ne.symm])
      (.inr (begunWait_of_none idle fun k => ?_))
    · refine ⟨(ok.entry_ok l).nodup, (ok.entry_ok l).present, ?_⟩
      simp only [shared]
      exact ⟨owner, held, transit, cause, waiters, fun g e => Option.some.inj e ▸ ⟨holder, others⟩⟩
    · cases k with
      | claimShared => exact iff_of_false (none .claimShared) nofun
      | claimExclusive => exact iff_of_false (none .claimExclusive) nofun
      | upgrade => exact iff_of_true rfl rfl

theorem upgradeEntry_step (wait : Word) : EntryStep l s (upgradeEntry h id wait l s) := by
  have refused (st : Status) (ws : List Word) := (EntryStep.refl l s).reply h id st ws
  unfold upgradeEntry
  dsimp only
  split
  · exact refused ..
  · split
    · exact refused ..
    · split
      · exact refused ..
      · next holder =>
        rw [Bool.not_eq_true, Bool.not_eq_false'] at holder
        split
        · next sole => exact (soleUpgrade_step sole).reply ..
        · next others =>
          split
          · exact refused ..
          · next slot =>
            split
            · exact refused ..
            · split
              · exact refused ..
              · next idle =>
                exact (pendingUpgrade_step holder others (by simpa using idle) slot).reply ..

/-! ## REPAIR, and a lease taken over (R76, R129) -/

theorem LeaseEntry.dropWaiter_of_not {e : LeaseEntry} (waiter : ¬ e.hasWaiter h) :
    (e.dropWaiter h).waiters = e.waiters := by
  refine List.filter_eq_self.mpr fun w mem => ?_
  rw [decide_eq_true_eq]
  rintro rfl
  exact waiter (List.mem_map_of_mem mem)

/-- A lease that becomes EXCLUSIVE under a host counted JOINED, with the host's own wait on it gone. -/
theorem takeOver_ok {e : LeaseEntry} {waited : Bool} (ok : DirectoryOk s)
    (joined : (s.dir.joined.get h).isSome = true) (state : e.state = .exclusive) (owner : e.owner = some h)
    (holders : e.holders = 0#4) (slot : e.upgrade = none) (was_slot : (s.entry l).upgrade = none)
    (cause : e.cause = none) (present : e.ownerPresent = true → e.transit.isSome = true)
    (waiters : e.waiters = ((s.entry l).dropWaiter h).waiters)
    (on : waited = true → ∀ x, s.waitKey h = some x → x.1 = l)
    (off : waited = false → ¬ (s.entry l).hasWaiter h) :
    DirectoryOk (if waited then (s.putEntry l e).setWait h none else s.putEntry l e) := by
  have waiter_iff : ∀ g, e.hasWaiter g ↔ (s.entry l).hasWaiter g ∧ g ≠ h := fun g => by
    rw [LeaseEntry.hasWaiter, waiters]
    exact LeaseEntry.dropWaiter_hasWaiter
  have entryOk : e.Ok := by
    refine ⟨waiters ▸ LeaseEntry.dropWaiter_nodup (ok.entry_ok l).nodup, present, ?_⟩
    rw [state]
    refine ⟨by rw [owner]; rfl, holders, slot, cause, fun g w own => ?_⟩
    rw [owner] at own
    exact ((waiter_iff g).mp w).2 (Option.some.inj own).symm
  have roles : ∀ g, e.hasRole g → (s.entry l).hasRole g ∨ (s.dir.joined.get g).isSome = true := fun g role => by
    rcases role with holder | acts | waiter
    · simp [holders] at holder
    · obtain ⟨-, own, -⟩ := (LeaseEntry.acts_iff ..).mp acts
      rw [owner] at own
      exact .inr (Option.some.inj own ▸ joined)
    · exact .inl (.inr (.inr ((waiter_iff g).mp waiter).1))
  cases waited with
  | true =>
    rw [if_pos rfl, ← directoryOkWith_ok l]
    refine ok.rewrite_for h entryOk roles (fun g ne m => ?_) (fun g _ => by rw [slot, was_slot]) (.inl ⟨on rfl, ?_, ?_⟩)
    · rw [waiters, LeaseEntry.mem_dropWaiter, and_iff_left ne]
    · exact State.waitKey_of_none (by simp)
    · rw [State.setWait_entry, State.putEntry_entry_same]
      exact LeaseEntry.not_awaits (fun w => ((waiter_iff h).mp w).2 rfl) (by simp [slot])
  | false =>
    rw [if_neg (by simp), ← directoryOkWith_ok l]
    exact ok.rewrite (waiters.trans (LeaseEntry.dropWaiter_of_not (off rfl))) (slot.trans was_slot.symm) entryOk roles

theorem AtEntry.clear {t : State} (a : AtEntry l s t) (b : Bool) (h : HostId) :
    AtEntry l s (if b then t.setWait h none else t) := by
  cases b
  · exact a
  · exact a.setWait h none

theorem State.clear_entry (b : Bool) (h : HostId) (t : State) (l : LeaseId) :
    (if b then t.setWait h none else t).entry l = t.entry l := by
  cases b <;> rfl

theorem repairEntry_step (joined : (s.dir.joined.get h).isSome = true) : EntryStep l s (repairEntry h id l s) := by
  unfold repairEntry
  dsimp only
  split
  · next stranded =>
    refine EntryStep.reply ⟨((AtEntry.refl l s).put _).clear _ h, ?_, fun ok => ?_⟩ ..
    · rw [State.clear_entry, State.putEntry_entry_same]
      exact .of_raised rfl rfl rfl fun _ x => x
    · obtain ⟨-, slot, transit, -, -⟩ := (ok.entry_ok l).of_stranded stranded
      refine takeOver_ok ok joined rfl rfl rfl slot slot rfl (ok.entry_ok l).present rfl (fun on x key => ?_)
        fun off waiter => ?_
      · obtain ⟨r, wait, rfl⟩ := Option.map_eq_some_iff.mp key
        simpa [State.waitsOn, wait] using on
      · obtain ⟨k, awaits⟩ := LeaseEntry.awaits_of_hasWaiter waiter
        obtain ⟨r, wait, names⟩ := Option.map_eq_some_iff.mp (((directoryOkWith_ok l s).mpr ok).key awaits)
        cases names
        simp [State.waitsOn, wait] at off
  · exact (EntryStep.refl l s).reply ..

theorem completeEntry_step (joined : (s.dir.joined.get h).isSome = true)
    (transit : (s.entry l).transit.isSome = true) : EntryStep l s (completeEntry l h s).2 := by
  have taken : EntryStep l s (if s.claimsLease h l then (s.putEntry l
      { ((s.entry l).enterExclusive h).dropWaiter h with transit := none, ownerPresent := false }).setWait h none
      else s.putEntry l
        { ((s.entry l).enterExclusive h).dropWaiter h with transit := none, ownerPresent := false }) := by
    refine ⟨((AtEntry.refl l s).put _).clear _ h, ?_, fun ok => ?_⟩
    · rw [State.clear_entry, State.putEntry_entry_same]
      exact .of_raised rfl rfl rfl nofun
    · have exclusive := (ok.entry_ok l).exclusive_of_transit transit
      obtain ⟨-, -, slot, cause, -⟩ := (ok.entry_ok l).of_exclusive exclusive
      refine takeOver_ok ok joined rfl rfl rfl slot slot cause nofun rfl (fun on x key => ?_) fun off waiter => ?_
      · obtain ⟨r, wait, rfl⟩ := Option.map_eq_some_iff.mp key
        simp only [State.claimsLease, wait, decide_eq_true_eq] at on
        exact on.1
      · obtain ⟨k, awaits⟩ := LeaseEntry.awaits_of_hasWaiter waiter
        obtain ⟨r, wait, names⟩ := Option.map_eq_some_iff.mp (((directoryOkWith_ok l s).mpr ok).key awaits)
        cases names
        have upgrade : r.kind = .upgrade := by simpa [State.claimsLease, wait] using off
        rw [upgrade] at awaits
        rw [show (s.entry r.lease).upgrade = some h from awaits] at slot
        cases slot
  unfold completeEntry
  dsimp only
  split
  · exact taken.offerDir ..
  · exact taken

end

end Sys2Proof.Machine
end

section
/-! PROOF. The other rows of the lease directory: the ends of waits, the departure of a host lease by lease, joins, and
the question of COMMIT; with each row's next state written once. -/

namespace Sys2Proof.Machine

open Sys2Proof

/-! ## The ends of waits (R46, R47, R53) -/

section
variable {l : LeaseId} {h : HostId} {s : State}

/-- A wait record stands for a wait at its lease. -/
theorem DirectoryOk.awaits_of_kind (ok : DirectoryOk s) {r : WaitRecord} {k : WaitKind} (wait : s.wait h = some r)
    (kind : r.kind = k) : (s.entry r.lease).Awaits h k :=
  (((directoryOkWith_ok 0 s).mpr ok).waits ..).mpr (by rw [State.waitKey, wait, ← kind]; rfl)

theorem endWait_step {r : WaitRecord} (wait : s.wait h = some r) : EntryStep r.lease s (endWait h r s).1 := by
  unfold endWait
  split
  · next upgrade => exact dropUpgrade_step fun ok => ok.awaits_of_kind wait upgrade
  · next shared =>
    exact dropClaimWait_step fun ok => (LeaseEntry.hasWaiter_iff ..).mpr (.inl (ok.awaits_of_kind wait shared))
  · next exclusive =>
    exact dropClaimWait_step fun ok => (LeaseEntry.hasWaiter_iff ..).mpr (.inr (ok.awaits_of_kind wait exclusive))

theorem cancelWaitTaken_step (id : Nat) : ∃ l, LeaseStep l s (cancelWaitTaken h id s) := by
  unfold cancelWaitTaken
  split
  · exact ⟨0, (LeaseStep.refl 0 s).reply ..⟩
  · next r wait =>
    refine ⟨r.lease, ?_⟩
    split
    · next read => exact (LeaseStep.of_read_true read).reply ..
    · next read =>
      have wait' := ((readEntry_false read).2.2.1 h).trans wait
      exact .of_read_false read ((endWait_step wait').reply ..)

theorem expireWait_step {r : WaitRecord} (wait : s.wait h = some r) : LeaseStep r.lease s (expireWait h r s) := by
  unfold expireWait
  split
  · next read => exact .of_read_true read
  · next t read =>
    have wait' := ((readEntry_false read).2.2.1 h).trans wait
    have told : AtEntry r.lease t (t.offerDir h (.waitExpired r.lease r.kind)) := (AtEntry.refl _ t).offerDir ..
    have ended := endWait_step (s := t.offerDir h (.waitExpired r.lease r.kind)) wait'
    exact .of_read_false read ⟨told.trans ended.at_entry, ended.law, fun ok => ended.ok (ok.of_dir rfl)⟩

/-! ## WRITE_VALUE (R39) -/

theorem writeValue_ok {v : BitVec 32} (ok : DirectoryOk s) :
    DirectoryOk (s.putEntry l { s.entry l with value := v }) :=
  (directoryOkWith_ok l _).mp (ok.rewrite rfl rfl (ok.entry_ok l) fun _ role => .inl role)

/-! ## COMMIT's question (R113) -/

/-- An acting owner's lease in transit is still its own. -/
theorem startTransit_ok {x : Transit} (ok : DirectoryOk s) (acts : (s.entry l).acts h = true)
    (here : (s.entry l).transit = none) :
    DirectoryOk (s.putEntry l { s.entry l with transit := some x, ownerPresent := true }) := by
  obtain ⟨exclusive, -, -⟩ := (LeaseEntry.acts_iff ..).mp acts
  refine (directoryOkWith_ok l _).mp (ok.rewrite rfl rfl ⟨(ok.entry_ok l).nodup, fun _ => rfl, ?_⟩ fun g role =>
    .inl (role.imp id fun rest => rest.imp (fun acts => ?_) id))
  · simp only [exclusive]
    exact (ok.entry_ok l).of_exclusive exclusive
  · obtain ⟨state, own, -⟩ := (LeaseEntry.acts_iff ..).mp acts
    exact (LeaseEntry.acts_iff ..).mpr ⟨state, own, .inl here⟩

/-! ## The directory's part of a departure at one lease (R64 to R69) -/

theorem senderGone_step : EntryStep l s (s.putEntry l { s.entry l with ownerPresent := false }) := by
  refine .put rfl rfl (LeaseEntry.Keeps.law ⟨rfl, rfl, fun x => ⟨x, rfl⟩, fun _ x => x⟩) (fun ok =>
    ⟨(ok.entry_ok l).nodup, nofun, (ok.entry_ok l).2.2⟩) fun ok g role => .inl (role.imp id fun rest =>
      rest.imp (fun acts => ?_) id)
  obtain ⟨state, own, here⟩ := (LeaseEntry.acts_iff ..).mp acts
  exact (LeaseEntry.acts_iff ..).mpr ⟨state, own, .inl (here.resolve_right nofun)⟩

theorem departAtLease_step (h : HostId) (l : LeaseId) (s : State) : LeaseStep l s (departAtLease h l s) := by
  unfold departAtLease
  split
  · next read => exact .of_read_true read
  · next t read =>
    refine .of_read_false read ?_
    dsimp only
    split
    · next holder => exact dropHolder_step holder
    · split
      · next acts =>
        rw [Bool.and_eq_true] at acts
        exact strandEntry_step nofun fun _ => ((LeaseEntry.acts_iff ..).mp acts.1).1
      · split
        · exact senderGone_step
        · split
          · next waiter => exact dropClaimWait_step fun _ => (LeaseEntry.any_waiter_iff ..).mp waiter
          · exact .refl l t

/-- The departed host has no role left at the lease (R65). -/
theorem departAtLease_no_role (ok : DirectoryOk s) : ¬ ((departAtLease h l s).entry l).hasRole h := by
  unfold departAtLease
  split
  · next read =>
    rw [(readEntry_true read).2.1]
    exact LeaseEntry.rebuilt_no_role h
  · next t read =>
    have okT := (readEntry_false read).2.2.2 ok
    dsimp only
    split
    · next holder => exact dropHolder_no_role okT holder
    · next holder =>
      rw [Bool.not_eq_true] at holder
      split
      · next acts =>
        rw [Bool.and_eq_true] at acts
        obtain ⟨exclusive, own, -⟩ := (LeaseEntry.acts_iff ..).mp acts.1
        obtain ⟨-, -, -, -, waiters⟩ := (okT.entry_ok l).of_exclusive exclusive
        rw [strandEntry_entry]
        intro role
        rcases LeaseEntry.strand_role role with was | waiter
        · rw [holder] at was
          cases was
        · exact waiters h waiter own
      · next not_here =>
        split
        · next acts =>
          obtain ⟨exclusive, own, -⟩ := (LeaseEntry.acts_iff ..).mp acts
          obtain ⟨-, -, -, -, waiters⟩ := (okT.entry_ok l).of_exclusive exclusive
          rw [State.putEntry_entry_same]
          rintro (was | acts' | waiter)
          · rw [show HostSet.has (t.entry l).holders h = true from was] at holder
            cases holder
          · obtain ⟨-, -, here⟩ := (LeaseEntry.acts_iff ..).mp acts'
            rw [acts, show (t.entry l).transit = none from here.resolve_right nofun] at not_here
            exact not_here rfl
          · exact waiters h waiter own
        · next acts =>
          rw [Bool.not_eq_true] at acts
          split
          · exact dropClaimWait_no_role okT holder acts
          · next waiter =>
            rw [LeaseEntry.any_waiter_iff] at waiter
            rintro (was | acts' | waiter')
            · rw [was] at holder
              cases holder
            · rw [acts'] at acts
              cases acts
            · exact waiter waiter'

/-! ## A departure, lease by lease -/

/-- What is left of a departure once a lease is done. -/
def Departing.without (p : Departing) (l : LeaseId) : Option Departing :=
  let due := p.due.filter fun x => x ≠ l
  if due = [] then none else some ⟨p.session, due⟩

theorem Departing.without_of_due {p : Departing} {l l' : LeaseId} (due : l' ∈ p.due) (ne : l' ≠ l) :
    ∃ q, p.without l = some q ∧ l' ∈ q.due := by
  have left : l' ∈ p.due.filter fun x => x ≠ l := List.mem_filter.mpr ⟨due, decide_eq_true ne⟩
  exact ⟨_, if_neg (List.ne_nil_of_mem left), left⟩

/-- The departure of a host with one more lease done. -/
def State.leaseDone (s : State) (h : HostId) (p : Departing) (l : LeaseId) : State :=
  { s with dir := { s.dir with departing := upd s.dir.departing h (p.without l) } }

theorem departLease_cases (h : HostId) (l : LeaseId) (s : State) : departLease h l s = s
    ∨ ∃ p, s.dir.departing.get h = some p ∧ l ∈ p.due
      ∧ departLease h l s = (departAtLease h l s).leaseDone h p l := by
  unfold departLease
  split
  · exact .inl rfl
  · next p departing =>
    split
    · next due => exact .inr ⟨p, departing, due, rfl⟩
    · exact .inl rfl

theorem leaseDone_ok {p : Departing} (ok : DirectoryOk s) (departing : s.dir.departing.get h = some p)
    (no_role : ¬ (s.entry l).hasRole h) : DirectoryOk (s.leaseDone h p l) := by
  obtain ⟨entries, waits, roles⟩ := ok
  refine ⟨entries, waits, fun l' g role => ?_⟩
  have role' : (s.entry l').hasRole g := role
  refine (roles l' g role').imp id fun ⟨q, departs, due⟩ => ?_
  rcases eq_or_ne h g with rfl | ne
  · rw [departing] at departs
    cases departs
    have ne : l' ≠ l := fun same => no_role (same ▸ role')
    obtain ⟨q, left, due'⟩ := Departing.without_of_due due ne
    exact ⟨q, (upd_get_same ..).trans left, due'⟩
  · exact ⟨q, (upd_get_ne _ _ ne).trans departs, due⟩

theorem departLease_ok (ok : DirectoryOk s) : DirectoryOk (departLease h l s) := by
  rcases departLease_cases h l s with same | ⟨p, departing, -, done⟩
  · rwa [same]
  · have step := departAtLease_step h l s
    rw [done]
    refine leaseDone_ok (step.ok ok) ?_ (departAtLease_no_role ok)
    rw [step.at_entry.served.departing, departing]

theorem startDeparture_some {t : State} (e : startDeparture h s = some t) : ∃ c k rest,
    s.dir.path = .departure h c k :: rest ∧ transferAhead h k s.store.path = false ∧ t = { s with dir := { s.dir with
      path := rest
      joined := upd s.dir.joined h none
      departing := upd s.dir.departing h (some ⟨k, allLeases⟩) } } := by
  unfold startDeparture at e
  split at e
  · next g c k rest path =>
    split at e
    · next taken =>
      obtain ⟨rfl, ahead⟩ := taken
      exact ⟨c, k, rest, path, ahead, (Option.some.inj e).symm⟩
    · cases e
  · cases e

theorem startDeparture_ok {t : State} (ok : DirectoryOk s) (e : startDeparture h s = some t) : DirectoryOk t := by
  obtain ⟨c, k, rest, -, -, rfl⟩ := startDeparture_some e
  obtain ⟨entries, waits, roles⟩ := ok
  refine ⟨entries, waits, fun l g role => ?_⟩
  rcases eq_or_ne h g with rfl | ne
  · exact .inr ⟨_, upd_get_same .., List.mem_finRange l⟩
  · have := roles l g role
    simpa only [upd_get_ne _ _ ne] using this

theorem directoryJoin_ok {path : List PathItem} {k : Nat} (ok : DirectoryOk s) : DirectoryOk { s with
    dir := { s.dir with path := path, joined := upd s.dir.joined h (some k) } } := by
  obtain ⟨entries, waits, roles⟩ := ok
  refine ⟨entries, waits, fun l g role => ?_⟩
  rcases eq_or_ne h g with rfl | ne
  · left
    simp
  · have := roles l g role
    simpa only [upd_get_ne _ _ ne] using this

end

end Sys2Proof.Machine
end

section
/-! PROOF. The store's soundness descriptor by descriptor, and what a change at one descriptor leaves sound at the
others (R81 to R84, R89, R92). -/

namespace Sys2Proof.Machine

open Sys2Proof

/-! ## The store's soundness, one descriptor at a time -/

/-- What StoreOk says of one descriptor: the records, lists and queues that name it, its message and its cells. -/
structure DescSound (s : State) (d : DescId) : Prop where
  reserved : ∀ h : HostId, (∃ k, s.space h = .reserved d k) ↔ (s.desc d).state = .reserved ∧ (s.desc d).source = h
  assembling : ∀ h : HostId, (s.stream h).assembling = some d ↔ (s.desc d).state = .assembling ∧ (s.desc d).source = h
  msg : (s.desc d).state = .assembling → (s.desc d).msg.isSome = true
  opened : ∀ h : HostId, (s.stream h).openDesc = some d ↔ (s.desc d).state = .opened ∧ d ∈ s.queue h
  queued : ∀ h : HostId, d ∈ s.queue h ↔
    ((s.desc d).state = .queued ∨ (s.desc d).state = .opened) ∧ (s.desc d).msg.map Message.dest = some h
  message : ∀ m : Message, (s.desc d).msg = some m → m.length ≤ Config.maxLength
    ∧ (s.desc d).cellCount = (m.length + 15) / 16 ∧ m.written ≤ m.length
    ∧ (m.written % 2 = 0 ∨ m.written = m.length)
  readPos : ∀ (h : HostId) (m : Message), (s.stream h).openDesc = some d → (s.desc d).msg = some m →
    (s.stream h).readPos ≤ m.length ∧ ((s.stream h).readPos % 2 = 0 ∨ (s.stream h).readPos = m.length)
  cells : ∀ (c : CellId) (p : Nat), s.mapEntry c = .owned d p → (s.desc d).state ≠ .free ∧ p < (s.desc d).cellCount
  unique : ∀ (c c' : CellId) (p : Nat), s.mapEntry c = .owned d p → s.mapEntry c' = .owned d p → c = c'

/-- What StoreOk says of the hosts' lists alone. -/
structure ListsSound (s : State) : Prop where
  nodup : s.store.spaceList.Nodup
  waiting : ∀ h : HostId, h ∈ s.store.spaceList ↔ ∃ n t, s.space h = .waiting n t
  queues : ∀ h : HostId, (s.queue h).Nodup

theorem storeOk_iff (s : State) : StoreOk s ↔ ListsSound s ∧ ∀ d, DescSound s d := by
  constructor
  · rintro ⟨⟨cells, unique⟩, ⟨nodup, waiting, reserved, assembling, msg, opened, queues, queued⟩, message, readPos⟩
    exact ⟨⟨nodup, waiting, queues⟩, fun d => ⟨fun h => reserved h d, fun h => assembling h d, msg d,
      fun h => opened h d, fun h => queued h d, message d, fun h => readPos h d, fun c => cells c d,
      fun c c' => unique c c' d⟩⟩
  · rintro ⟨⟨nodup, waiting, queues⟩, descs⟩
    exact ⟨⟨fun c d => (descs d).cells c, fun c c' d => (descs d).unique c c'⟩,
      ⟨nodup, waiting, fun h d => (descs d).reserved h, fun h d => (descs d).assembling h, fun d => (descs d).msg,
        fun h d => (descs d).opened h, queues, fun h d => (descs d).queued h⟩,
      fun d => (descs d).message, fun h d => (descs d).readPos h⟩

theorem StoreOk.lists {s : State} (ok : StoreOk s) : ListsSound s := ((storeOk_iff s).mp ok).1

theorem StoreOk.desc {s : State} (ok : StoreOk s) (d : DescId) : DescSound s d := ((storeOk_iff s).mp ok).2 d

/-- Between two states nothing changed about a descriptor, but that cells of its may have been lost. -/
structure SameDesc (s t : State) (d : DescId) : Prop where
  desc : t.desc d = s.desc d
  reserved : ∀ h, (∃ k, t.space h = .reserved d k) ↔ ∃ k, s.space h = .reserved d k
  assembling : ∀ h, (t.stream h).assembling = some d ↔ (s.stream h).assembling = some d
  opened : ∀ h, (t.stream h).openDesc = some d ↔ (s.stream h).openDesc = some d
  readPos : ∀ h, (t.stream h).openDesc = some d → (t.stream h).readPos = (s.stream h).readPos
  queue : ∀ h, d ∈ t.queue h ↔ d ∈ s.queue h
  cells : ∀ c p, t.mapEntry c = .owned d p → s.mapEntry c = .owned d p

theorem SameDesc.sound {s t : State} {d : DescId} (same : SameDesc s t d) (ok : DescSound s d) : DescSound t d where
  reserved h := by rw [same.desc, same.reserved, ok.reserved]
  assembling h := by rw [same.desc, same.assembling, ok.assembling]
  msg := by rw [same.desc]; exact ok.msg
  opened h := by rw [same.desc, same.opened, same.queue, ok.opened]
  queued h := by rw [same.desc, same.queue, ok.queued]
  message := by rw [same.desc]; exact ok.message
  readPos h m := by
    intro isOpen
    rw [same.desc, same.readPos h isOpen]
    exact ok.readPos h m ((same.opened h).mp isOpen)
  cells c p owned := by rw [same.desc]; exact ok.cells c p (same.cells c p owned)
  unique c c' p owned owned' := ok.unique c c' p (same.cells c p owned) (same.cells c' p owned')

/-- The objects of the store that its soundness reads, but for the cell map, are the same. -/
structure SameLinks (s t : State) : Prop where
  descs : ∀ d, t.desc d = s.desc d
  space : t.store.space = s.store.space
  spaceList : t.store.spaceList = s.store.spaceList
  streams : t.store.streams = s.store.streams
  inbound : t.store.inbound = s.store.inbound

theorem SameLinks.refl (s : State) : SameLinks s s := ⟨fun _ => rfl, rfl, rfl, rfl, rfl⟩

theorem SameLinks.trans {s t u : State} (a : SameLinks s t) (b : SameLinks t u) : SameLinks s u :=
  ⟨fun d => (b.descs d).trans (a.descs d), b.space.trans a.space, b.spaceList.trans a.spaceList,
    b.streams.trans a.streams, b.inbound.trans a.inbound⟩

theorem SameLinks.of_store {s t : State} (e : t.store = s.store) : SameLinks s t :=
  ⟨fun _ => by rw [State.desc, e, State.desc], by rw [e], by rw [e], by rw [e], by rw [e]⟩

theorem SameLinks.lists {s t : State} (same : SameLinks s t) (ok : ListsSound s) : ListsSound t where
  nodup := by rw [same.spaceList]; exact ok.nodup
  waiting h := by rw [same.spaceList, State.space_congr same.space]; exact ok.waiting h
  queues h := by rw [State.queue_congr same.inbound]; exact ok.queues h

theorem SameLinks.desc {s t : State} (same : SameLinks s t) (d : DescId)
    (cells : ∀ c p, t.mapEntry c = .owned d p → s.mapEntry c = .owned d p) : SameDesc s t d where
  desc := same.descs d
  reserved h := by rw [State.space_congr same.space]
  assembling h := by rw [State.stream_congr same.streams]
  opened h := by rw [State.stream_congr same.streams]
  readPos h _ := by rw [State.stream_congr same.streams]
  queue h := by rw [State.queue_congr same.inbound]
  cells := cells

/-- The store stays sound when only cells are lost. -/
theorem SameLinks.storeOk {s t : State} (same : SameLinks s t)
    (cells : ∀ c d p, t.mapEntry c = .owned d p → s.mapEntry c = .owned d p) (ok : StoreOk s) : StoreOk t :=
  (storeOk_iff t).mpr ⟨same.lists ok.lists, fun d => (same.desc d fun c => cells c d).sound (ok.desc d)⟩

/-- The store stays sound when it stays. -/
theorem StoreOk.of_store {s t : State} (ok : StoreOk s) (e : t.store = s.store) : StoreOk t :=
  (SameLinks.of_store e).storeOk (fun c d p owned => by rwa [State.mapEntry_congr (congrArg (·.map) e)] at owned) ok

/-! ## Leases in transit -/

/-- The descriptor carries what it carried: it waits or is open as it did, with the same lease to the same host. -/
def CarriesAs (x y : Descriptor) : Prop :=
  (x.state = .queued ∨ x.state = .opened) → (y.state = .queued ∨ y.state = .opened)
    ∧ y.msg.map (fun m => (m.carried, m.dest)) = x.msg.map (fun m => (m.carried, m.dest))

theorem CarriesAs.refl (x : Descriptor) : CarriesAs x x := fun state => ⟨state, rfl⟩

/-- The leases in transit are fewer, and the descriptors that carry them carry them as they did. -/
theorem TransitOk.update {s t : State} (ok : TransitOk s)
    (transit : ∀ l x, (t.entry l).transit = some x → (s.entry l).transit = some x)
    (carry : ∀ l x, (t.entry l).transit = some x → CarriesAs (s.desc x.desc) (t.desc x.desc)) : TransitOk t := by
  intro l x inTransit
  obtain ⟨state, carried⟩ := ok l x (transit l x inTransit)
  obtain ⟨state', carried'⟩ := carry l x inTransit state
  exact ⟨state', carried'.trans carried⟩

theorem TransitOk.not_carriedIn {s : State} (ok : TransitOk s) {d : DescId} (queued : (s.desc d).state ≠ .queued)
    (opened : (s.desc d).state ≠ .opened) (l : LeaseId) : (s.entry l).carriedIn d = false := by
  rw [Bool.eq_false_iff, ne_eq, LeaseEntry.carriedIn_iff]
  intro named
  obtain ⟨x, transit, rfl⟩ := Option.map_eq_some_iff.mp named
  exact (ok l x transit).1.elim queued opened

/-- Only the lease that its message names is carried in a descriptor. -/
theorem TransitOk.carried_of_carriedIn {s : State} (ok : TransitOk s) {d : DescId} {l : LeaseId} {m : Message}
    (msg : (s.desc d).msg = some m) (carried : (s.entry l).carriedIn d = true) : m.carried = some l := by
  obtain ⟨x, transit, rfl⟩ := Option.map_eq_some_iff.mp ((LeaseEntry.carriedIn_iff ..).mp carried)
  have names := (ok l x transit).2
  rw [msg, Option.map_some, Option.some.injEq, Prod.mk.injEq] at names
  exact names.1

end Sys2Proof.Machine
end

section
/-! PROOF. What the store's own operations keep: the soundness of store and directory, the leases in transit, the retired
cells, the payload, and every host's usage; then the reads of the cell map and the freeing of a descriptor. -/

namespace Sys2Proof.Machine

open Sys2Proof

/-! ## Objects left alone -/

/-- Neither the directory's entries, waits and counts nor the store's objects change. -/
structure SameObjects (s t : State) : Prop where
  entries : t.dir.entries = s.dir.entries
  waits : t.dir.waits = s.dir.waits
  dirJoined : t.dir.joined = s.dir.joined
  departing : t.dir.departing = s.dir.departing
  store : t.store = { s.store with
    cellChk := t.store.cellChk, joined := t.store.joined, descQuota := t.store.descQuota,
    cellQuota := t.store.cellQuota, inboundLimit := t.store.inboundLimit, changes := t.store.changes,
    path := t.store.path, ticks := t.store.ticks }

section
variable {s t u : State}

theorem SameObjects.of_blocks (dir : t.dir = s.dir) (store : t.store = s.store) : SameObjects s t :=
  ⟨by rw [dir], by rw [dir], by rw [dir], by rw [dir], by rw [store]⟩

theorem SameObjects.refl (s : State) : SameObjects s s := .of_blocks rfl rfl

theorem SameObjects.trans (a : SameObjects s t) (b : SameObjects t u) : SameObjects s u :=
  ⟨b.entries.trans a.entries, b.waits.trans a.waits, b.dirJoined.trans a.dirJoined, b.departing.trans a.departing,
    b.store.trans (by rw [a.store])⟩

theorem SameObjects.entry (a : SameObjects s t) (l : LeaseId) : t.entry l = s.entry l := State.entry_congr a.entries l

theorem SameObjects.dir_ok (a : SameObjects s t) (ok : DirectoryOk s) : DirectoryOk t :=
  ok.congr a.entry (fun g => by rw [State.waitKey, State.wait_congr a.waits, State.waitKey]) a.dirJoined a.departing

theorem SameObjects.desc (a : SameObjects s t) (d : DescId) : t.desc d = s.desc d := by
  rw [State.desc, a.store, State.desc]

theorem SameObjects.mapEntry (a : SameObjects s t) (c : CellId) : t.mapEntry c = s.mapEntry c := by
  rw [State.mapEntry, a.store, State.mapEntry]

theorem SameObjects.links (a : SameObjects s t) : SameLinks s t :=
  ⟨a.desc, by rw [a.store], by rw [a.store], by rw [a.store], by rw [a.store]⟩

theorem SameObjects.store_ok (a : SameObjects s t) (ok : StoreOk s) : StoreOk t :=
  a.links.storeOk (fun c _ _ owned => a.mapEntry c ▸ owned) ok

theorem SameObjects.transit (a : SameObjects s t) (ok : TransitOk s) : TransitOk t :=
  ok.update (fun l _ e => a.entry l ▸ e) fun _ x _ => by
    rw [a.desc]
    exact .refl _

theorem SameObjects.payload (a : SameObjects s t) (ok : PayloadOk s) : PayloadOk t := by
  rw [PayloadOk, a.store]
  exact ok

theorem SameObjects.usage (a : SameObjects s t) (h : HostId) : descUsage h t = descUsage h s ∧ cellUsage h t = cellUsage h s := by
  simp only [descUsage, cellUsage, State.cellUsedBy, a.mapEntry, a.desc, and_self]

end

/-! ## What a step of the store keeps -/

/-- Each entry stays, is rebuilt, or loses its transit; the directory and the store stay sound; a retired cell stays
retired; no host's usage rises past its quota. Such steps may follow one another. -/
structure StoreKept (s t : State) : Prop where
  served : Served s t
  entries : ∀ l, (s.entry l).MayFail (t.entry l)
  dir_ok : DirectoryOk s → DirectoryOk t
  payload : PayloadOk s → PayloadOk t
  retired : ∀ c, s.mapEntry c = .retired → t.mapEntry c = .retired
  store_ok : StoreOk s → StoreOk t
  transit : StoreOk s → TransitOk s → TransitOk t
  usage : StoreOk s → ∀ h, descUsage h t ≤ max (descUsage h s) s.store.descQuota
    ∧ cellUsage h t ≤ max (cellUsage h s) s.store.cellQuota

section
variable {s t u : State}

theorem State.cellUsedBy_iff {c : CellId} {h : HostId} :
    s.cellUsedBy c h = true ↔ ∃ d p, s.mapEntry c = .owned d p ∧ (s.desc d).usedBy h = true := by
  unfold State.cellUsedBy
  cases s.mapEntry c <;> simp

theorem StoreKept.trans (a : StoreKept s t) (b : StoreKept t u) : StoreKept s u where
  served := a.served.trans b.served
  entries l := (a.entries l).trans (b.entries l)
  dir_ok ok := b.dir_ok (a.dir_ok ok)
  payload ok := b.payload (a.payload ok)
  retired c e := b.retired c (a.retired c e)
  store_ok ok := b.store_ok (a.store_ok ok)
  transit ok carried := b.transit (a.store_ok ok) (a.transit ok carried)
  usage ok h := by
    have first := a.usage ok h
    have second := b.usage (a.store_ok ok) h
    rw [a.served.descQuota, a.served.cellQuota] at second
    omega

/-- The store's objects but for the payload, and the entries, are what they were. -/
theorem StoreKept.of_same (served : Served s t) (dir : t.dir = s.dir) (descs : ∀ d, t.desc d = s.desc d) (map : ∀ c, t.mapEntry c = s.mapEntry c)
    (space : t.store.space = s.store.space) (list : t.store.spaceList = s.store.spaceList)
    (streams : t.store.streams = s.store.streams) (inbound : t.store.inbound = s.store.inbound)
    (payload : PayloadOk s → PayloadOk t) : StoreKept s t where
  served := served
  entries l := .inl (State.entry_of_dir dir l)
  dir_ok ok := ok.of_dir dir
  payload := payload
  retired c e := (map c).trans e
  store_ok := SameLinks.storeOk ⟨descs, space, list, streams, inbound⟩ fun c d p owned => (map c) ▸ owned
  transit _ ok := ok.update (fun l x e => (State.entry_of_dir dir l) ▸ e) fun _ x _ => by rw [descs]; exact .refl _
  usage _ h := by
    refine ⟨le_max_of_le_left (le_of_eq ?_), le_max_of_le_left (le_of_eq ?_)⟩
    · simp only [descUsage, descs]
    · simp only [cellUsage, State.cellUsedBy, map, descs]

theorem StoreKept.of_blocks (served : Served s t) (dir : t.dir = s.dir) (store : t.store = s.store) : StoreKept s t :=
  .of_same served dir (fun _ => by rw [State.desc, store, State.desc]) (fun _ => by rw [State.mapEntry, store, State.mapEntry])
    (by rw [store]) (by rw [store]) (by rw [store]) (by rw [store])
    fun ok => by rwa [PayloadOk, store]

theorem StoreKept.refl (s : State) : StoreKept s s := .of_blocks (.refl s) rfl rfl

theorem StoreKept.reply (a : StoreKept s t) (h : HostId) (id : Nat) (st : Status) (ws : List Word) :
    StoreKept s (t.reply h id st ws) := a.trans (.of_blocks (reply_served ..) rfl rfl)

theorem StoreKept.offerStore (a : StoreKept s t) (h : HostId) (n : Notice) : StoreKept s (t.offerStore h n) :=
  a.trans (.of_blocks (offerStore_work ..).served rfl rfl)

theorem StoreKept.storeFinding (a : StoreKept s t) (k : ObjectKind) (i : Nat) : StoreKept s (t.storeFinding k i) :=
  a.trans (.of_blocks (storeFinding_work ..).served (by rw [State.storeFinding_eq]; rfl) (by rw [State.storeFinding_eq]; rfl))

theorem StoreKept.foldl {α : Type} {f : State → α → State} (each : ∀ s x, StoreKept s (f s x)) (xs : List α) (s : State) :
    StoreKept s (xs.foldl f s) := by
  induction xs generalizing s with
  | nil => exact .refl s
  | cons x xs ih => exact (each s x).trans (ih (f s x))

/-- The directory's part alone. -/
theorem TransferWork.storeKept (w : TransferWork s t) : StoreKept s t where
  served := w.served
  entries := w.entries
  dir_ok := w.ok
  payload ok := by rwa [PayloadOk, w.store]
  retired c e := by rwa [State.mapEntry, w.store]
  store_ok ok := ok.of_store w.store
  transit _ ok := ok.update (fun _ _ e => w.transit e) fun _ x _ => by
    rw [State.desc, State.desc, w.store]
    exact .refl _
  usage _ h := by
    refine ⟨le_max_of_le_left (le_of_eq ?_), le_max_of_le_left (le_of_eq ?_)⟩
    · simp only [descUsage, State.desc, w.store]
    · simp only [cellUsage, State.cellUsedBy, State.mapEntry, State.desc, w.store]

end

/-! ## The reads of the cell map (R155, R162) -/

/-- The cell map may have lost cells, and nothing else of the store and the directory has changed. -/
structure MapRead (s t : State) : Prop where
  served : Served s t
  dir : t.dir = s.dir
  links : SameLinks s t
  store : t.store = { s.store with map := t.store.map, descs := t.store.descs }
  cells : ∀ c, t.mapEntry c = s.mapEntry c ∨ t.mapEntry c = .retired

section
variable {s t u : State}

theorem MapRead.refl (s : State) : MapRead s s := ⟨.refl s, rfl, .refl s, rfl, fun _ => .inl rfl⟩

theorem MapRead.trans (a : MapRead s t) (b : MapRead t u) : MapRead s u where
  served := a.served.trans b.served
  dir := b.dir.trans a.dir
  links := a.links.trans b.links
  store := b.store.trans (by rw [a.store])
  cells c := by
    rcases b.cells c with same | retired
    · rw [same]
      exact a.cells c
    · exact .inr retired

theorem MapRead.foldl {α : Type} {f : State → α → State} (each : ∀ s x, MapRead s (f s x)) (xs : List α) (s : State) :
    MapRead s (xs.foldl f s) := by
  induction xs generalizing s with
  | nil => exact .refl s
  | cons x xs ih => exact (each s x).trans (ih (f s x))

theorem MapRead.owned (a : MapRead s t) {c : CellId} {d : DescId} {p : Nat} (owned : t.mapEntry c = .owned d p) :
    s.mapEntry c = .owned d p := by
  rcases a.cells c with same | retired
  · rwa [same] at owned
  · rw [retired] at owned
    cases owned

theorem MapRead.kept (a : MapRead s t) : StoreKept s t where
  served := a.served
  entries l := .inl (State.entry_of_dir a.dir l)
  dir_ok ok := ok.of_dir a.dir
  payload ok := by rw [PayloadOk, a.store]; exact ok
  retired c e := (a.cells c).elim (fun same => same.trans e) id
  store_ok := a.links.storeOk fun _ _ _ => a.owned
  transit _ ok := ok.update (fun l _ e => (State.entry_of_dir a.dir l) ▸ e) fun _ x _ => by
    rw [a.links.descs]
    exact .refl _
  usage _ h := by
    refine ⟨le_max_of_le_left (le_of_eq ?_), le_max_of_le_left (List.countP_mono_left fun c _ used => ?_)⟩
    · simp only [descUsage, a.links.descs]
    · obtain ⟨d, p, owned, used⟩ := State.cellUsedBy_iff.mp used
      rw [a.links.descs] at used
      exact State.cellUsedBy_iff.mpr ⟨d, p, a.owned owned, used⟩

theorem putMap_mapRead (s : State) (c : CellId) {x : MapEntry} (fate : x = s.mapEntry c ∨ x = .retired) :
    MapRead s (s.putMap c x) := by
  refine ⟨(putMap_work ..).served, rfl, ⟨fun _ => rfl, rfl, rfl, rfl, rfl⟩, rfl, fun c' => ?_⟩
  rcases eq_or_ne c c' with rfl | ne
  · rwa [State.putMap_mapEntry_same]
  · exact .inl (State.putMap_mapEntry_ne _ _ _ _ ne)

theorem MapRead.of_blocks (served : Served s t) (dir : t.dir = s.dir) (store : t.store = s.store) : MapRead s t :=
  ⟨served, dir, .of_store store, by rw [store], fun _ => .inl (by rw [State.mapEntry, store, State.mapEntry])⟩

theorem readMapEntry_mapRead (s : State) (c : CellId) : MapRead s (readMapEntry s c) := by
  rcases readMapEntry_cases s c with ⟨-, r⟩ | ⟨-, r⟩ | ⟨-, r⟩ <;> rw [r]
  · exact .refl s
  · exact (putMap_mapRead s c (.inl rfl)).trans (.of_blocks (raiseCorrected_work _).served rfl rfl)
  · refine (putMap_mapRead s c (.inr rfl)).trans (.of_blocks (storeFinding_work ..).served ?_ ?_) <;> rw [State.storeFinding_eq]
    · exact withFault_dir ..
    · exact withFault_store ..

theorem readMap_mapRead (s : State) : MapRead s (readMap s) := .foldl readMapEntry_mapRead allCells s

theorem readMapFor_mapRead (d : DescId) (s : State) : MapRead s (readMapFor d s) := by
  rcases readMapFor_cases d s with ⟨-, r⟩ | ⟨-, r⟩ <;> rw [r]
  · exact .refl s
  · exact readMap_mapRead s

/-- A correctable descriptor written back, and counted. -/
theorem putDesc_mapRead (s : State) (d : DescId) : MapRead s (s.putDesc d (s.desc d)).raiseCorrected := by
  refine ⟨((putDesc_work ..).trans (raiseCorrected_work _)).served, rfl, ⟨fun d' => ?_, rfl, rfl, rfl, rfl⟩, rfl, fun _ => .inl rfl⟩
  rcases eq_or_ne d d' with rfl | ne
  · exact State.putDesc_desc_same ..
  · exact State.putDesc_desc_ne _ _ _ _ ne

/-- A descriptor that its read does not lose is read with no more than a count. -/
theorem readDescCore_false {d : DescId} (read : readDescCore d s = (false, t)) : MapRead s t := by
  rcases readDescCore_cases d s with ⟨-, r⟩ | ⟨-, r⟩ | ⟨-, r⟩ <;> rw [r] at read
  · rw [← (Prod.mk.inj read).2]
    exact .refl s
  · rw [← (Prod.mk.inj read).2]
    exact putDesc_mapRead s d
  · cases (Prod.mk.inj read).1

theorem readDescCore_true {d : DescId} (read : readDescCore d s = (true, t)) : t = loseDescCore d s := by
  rcases readDescCore_cases d s with ⟨-, r⟩ | ⟨-, r⟩ | ⟨-, r⟩ <;> rw [r] at read
  · cases (Prod.mk.inj read).1
  · cases (Prod.mk.inj read).1
  · exact (Prod.mk.inj read).2.symm

end

/-! ## A descriptor returns to FREE (R83, R85, R161) -/

section
variable {s : State} {d : DescId}

theorem clearDesc_desc (d o : DescId) (s : State) :
    (clearDesc d s).desc o = if d = o then Descriptor.cleared else s.desc o := by
  split
  · next e => rw [State.desc, clearDesc_descs, e, upd_get_same]
  · next ne => exact clearDesc_desc_ne s ne

theorem clearDesc_space (d : DescId) (s : State) (h : HostId) : (clearDesc d s).space h = (s.space h).drop d := by
  simp [clearDesc_eq, State.space, Vector.get_eq_getElem]

theorem InboundQueue.drop_append (q : InboundQueue) (d : DescId) :
    (q.drop d).urgent ++ (q.drop d).normal = (q.urgent ++ q.normal).filter fun x => x ≠ d := by
  simp [InboundQueue.drop, List.filter_append]

theorem clearDesc_queue (d : DescId) (s : State) (h : HostId) :
    (clearDesc d s).queue h = (s.queue h).filter fun x => x ≠ d := by
  have inbound : (clearDesc d s).store.inbound.get h = (s.store.inbound.get h).drop d := by
    simp [clearDesc_eq, Vector.get_eq_getElem]
  rw [State.queue, inbound, InboundQueue.drop_append, State.queue]

theorem clearDesc_mapEntry (d : DescId) (s : State) (c : CellId) :
    (clearDesc d s).mapEntry c = if (s.mapEntry c).ownedFrom d 0 then .free else s.mapEntry c := by
  rw [State.mapEntry, clearDesc_eq]
  simp only [mapFreed_eq]
  simp only [Vector.get_eq_getElem, Vector.getElem_ofFn, Fin.eta]
  split <;> rfl

theorem SpaceRecord.drop_eq_reserved {r : SpaceRecord} {d o : DescId} {k : Nat} :
    r.drop d = .reserved o k ↔ r = .reserved o k ∧ o ≠ d := by
  rw [SpaceRecord.drop_eq]
  cases r with
  | empty => simp
  | waiting => simp
  | reserved d' k' =>
    by_cases e : d' = d
    · simp only [e, if_true, SpaceRecord.reserved.injEq, reduceCtorEq, false_iff, not_and, not_not]
      exact fun same => same.1.symm
    · simp only [e, if_false, SpaceRecord.reserved.injEq, iff_self_and]
      exact fun same => same.1 ▸ e

theorem SpaceRecord.drop_eq_waiting {r : SpaceRecord} {d : DescId} {n : Nat} {k : Option Nat} :
    r.drop d = .waiting n k ↔ r = .waiting n k := by
  rw [SpaceRecord.drop_eq]
  cases r with
  | empty => simp
  | waiting => simp
  | reserved d' k' => by_cases e : d' = d <;> simp [e]

theorem StreamRecord.drop_assembling_iff {r : StreamRecord} {d o : DescId} :
    (r.drop d).assembling = some o ↔ r.assembling = some o ∧ o ≠ d := by
  unfold StreamRecord.drop
  dsimp only
  split
  · next e => simp [e, eq_comm]
  · next ne =>
    simp only [iff_self_and]
    exact fun e same => ne (same ▸ e)

theorem StreamRecord.drop_openDesc_iff {r : StreamRecord} {d o : DescId} :
    (r.drop d).openDesc = some o ↔ r.openDesc = some o ∧ o ≠ d := by
  unfold StreamRecord.drop
  dsimp only
  split
  · next e => simp [e, eq_comm]
  · next ne =>
    simp only [iff_self_and]
    exact fun e same => ne (same ▸ e)

theorem clearDesc_mapEntry_owned {o : DescId} {c : CellId} {p : Nat} :
    (clearDesc d s).mapEntry c = .owned o p ↔ s.mapEntry c = .owned o p ∧ o ≠ d := by
  rw [clearDesc_mapEntry]
  cases s.mapEntry c with
  | free => simp [MapEntry.ownedFrom]
  | retired => simp [MapEntry.ownedFrom]
  | owned d' p' =>
    by_cases e : d' = d
    · simp only [MapEntry.ownedFrom, e, Nat.zero_le, and_self, decide_true, if_true, MapEntry.owned.injEq, reduceCtorEq,
        false_iff, not_and, not_not]
      exact fun same => same.1.symm
    · simp only [MapEntry.ownedFrom, e, false_and, decide_false, Bool.false_eq_true, if_false, MapEntry.owned.injEq,
        iff_self_and]
      exact fun same => same.1 ▸ e

/-- Nothing changed about another descriptor. -/
theorem clearDesc_sameDesc {o : DescId} (ne : o ≠ d) : SameDesc s (clearDesc d s) o where
  desc := clearDesc_desc_ne s ne.symm
  reserved h := by simp only [clearDesc_space, SpaceRecord.drop_eq_reserved, ne, ne_eq, not_false_eq_true, and_true]
  assembling h := by rw [clearDesc_stream, StreamRecord.drop_assembling_iff, and_iff_left ne]
  opened h := by rw [clearDesc_stream, StreamRecord.drop_openDesc_iff, and_iff_left ne]
  readPos h _ := by rw [clearDesc_stream]; rfl
  queue h := by simp [clearDesc_queue, ne]
  cells c p owned := (clearDesc_mapEntry_owned.mp owned).1

theorem clearDesc_storeOk (ok : StoreOk s) : StoreOk (clearDesc d s) := by
  refine (storeOk_iff _).mpr ⟨⟨?_, fun h => ?_, fun h => ?_⟩, fun o => ?_⟩
  · rw [clearDesc_eq]
    exact ok.lists.nodup
  · rw [clearDesc_space]
    simp only [SpaceRecord.drop_eq_waiting]
    rw [← ok.lists.waiting h, clearDesc_eq]
  · rw [clearDesc_queue]
    exact (ok.lists.queues h).filter _
  · rcases eq_or_ne o d with rfl | ne
    · have cleared : (clearDesc o s).desc o = Descriptor.cleared := by rw [clearDesc_desc, if_pos rfl]
      constructor
      · intro h
        simp [cleared, clearDesc_space, SpaceRecord.drop_eq_reserved, Descriptor.cleared]
      · intro h
        simp [cleared, clearDesc_stream, StreamRecord.drop_assembling_iff, Descriptor.cleared]
      · simp [cleared, Descriptor.cleared]
      · intro h
        simp [cleared, clearDesc_stream, StreamRecord.drop_openDesc_iff, Descriptor.cleared]
      · intro h
        simp [cleared, clearDesc_queue, Descriptor.cleared]
      · simp [cleared, Descriptor.cleared]
      · simp [cleared, Descriptor.cleared]
      · intro c p owned
        exact absurd rfl (clearDesc_mapEntry_owned.mp owned).2
      · intro c c' p owned
        exact absurd rfl (clearDesc_mapEntry_owned.mp owned).2
    · exact (clearDesc_sameDesc ne).sound (ok.desc o)

theorem clearDesc_usage (h : HostId) : descUsage h (clearDesc d s) ≤ descUsage h s ∧ cellUsage h (clearDesc d s) ≤ cellUsage h s := by
  refine ⟨List.countP_mono_left fun o _ used => ?_, List.countP_mono_left fun c _ used => ?_⟩
  · rw [clearDesc_desc] at used
    split at used
    · cases used
    · exact used
  · obtain ⟨o, p, owned, used⟩ := State.cellUsedBy_iff.mp used
    obtain ⟨owned, ne⟩ := clearDesc_mapEntry_owned.mp owned
    rw [clearDesc_desc_ne s ne.symm] at used
    exact State.cellUsedBy_iff.mpr ⟨o, p, owned, used⟩

/-- A descriptor is cleared; the leases that it carries, if any, are left to the caller. -/
theorem StoreKept.then_clearDesc {t : State} (a : StoreKept s t)
    (empty : StoreOk s → TransitOk s → ∀ l, (t.entry l).carriedIn d = false) : StoreKept s (clearDesc d t) where
  served := a.served.trans (clearDesc_work d t).served
  entries l := by rw [State.entry_of_dir (clearDesc_dir d t) l]; exact a.entries l
  dir_ok ok := (a.dir_ok ok).of_dir (clearDesc_dir d t)
  payload ok := by rw [PayloadOk, clearDesc_eq]; exact a.payload ok
  retired c e := by rw [clearDesc_mapEntry, a.retired c e]; rfl
  store_ok ok := clearDesc_storeOk (a.store_ok ok)
  transit ok carried := by
    have same : ∀ l, (clearDesc d t).entry l = t.entry l := State.entry_of_dir (clearDesc_dir d t)
    refine (a.transit ok carried).update (fun l x e => by rwa [same] at e) fun l x e => ?_
    rw [same] at e
    have ne : d ≠ x.desc := by
      rintro rfl
      have := empty ok carried l
      simp [LeaseEntry.carriedIn, e] at this
    rw [clearDesc_desc_ne t ne]
    exact .refl _
  usage ok h := by
    have before := a.usage ok h
    have fall := clearDesc_usage (s := t) (d := d) h
    omega

/-- A descriptor that carries no lease returns to FREE. -/
theorem StoreKept.then_freeDesc {t : State} (a : StoreKept s t)
    (empty : StoreOk s → TransitOk s → ∀ l, (t.entry l).carriedIn d = false) : StoreKept s (freeDesc d t) := by
  have read := readMapFor_mapRead d t
  refine (a.trans read.kept).then_clearDesc fun ok carried l => ?_
  rw [State.entry_of_dir read.dir]
  exact empty ok carried l

theorem clearDesc_payload (d : DescId) (s : State) : (clearDesc d s).store.payload = s.store.payload := by
  rw [clearDesc_eq]

/-- A lost descriptor returns to FREE, and the carrying of every lease in it fails. -/
theorem loseDescCore_kept (d : DescId) (s : State) : StoreKept s (loseDescCore d s) := by
  have read := readMap_mapRead s
  have cleared_store := clearDesc_storeOk (d := d) (s := readMap s)
  have work := transfersLost_transferWork d ((clearDesc d (readMap s)).storeFinding .descriptor d.val)
  have dir : ((clearDesc d (readMap s)).storeFinding .descriptor d.val).dir = s.dir := by
    rw [State.storeFinding_eq, withFault_dir, clearDesc_dir, read.dir]
  have store : (loseDescCore d s).store = (clearDesc d (readMap s)).store := by
    rw [loseDescCore, work.store, State.storeFinding_eq, withFault_store]
  have desc : ∀ o, (loseDescCore d s).desc o = (clearDesc d (readMap s)).desc o := fun o => by
    rw [State.desc, store, State.desc]
  have map : ∀ c, (loseDescCore d s).mapEntry c = (clearDesc d (readMap s)).mapEntry c := fun c => by
    rw [State.mapEntry, store, State.mapEntry]
  have entries : ∀ l, (s.entry l).MayFail ((loseDescCore d s).entry l) := fun l => by
    have each := work.entries l
    rwa [State.entry_of_dir dir] at each
  constructor
  · exact (loseDescCore_work d s).served
  · exact entries
  · exact fun ok => work.ok (ok.of_dir dir)
  · intro ok
    rw [PayloadOk, store, clearDesc_payload]
    exact read.kept.payload ok
  · intro c e
    rw [map, clearDesc_mapEntry, read.kept.retired c e]
    rfl
  · exact fun ok => (cleared_store (read.kept.store_ok ok)).of_store store
  · intro _ carried
    refine carried.update (fun l x e => (entries l).transit e) fun l x e => ?_
    have ne : d ≠ x.desc := by
      rintro rfl
      have := transfersLost_not_carriedIn x.desc ((clearDesc x.desc (readMap s)).storeFinding .descriptor x.desc.val) l
      rw [loseDescCore] at e
      simp [LeaseEntry.carriedIn, e] at this
    rw [desc, clearDesc_desc_ne _ ne, read.links.descs]
    exact .refl _
  · intro ok h
    have before := read.kept.usage ok h
    have fall := clearDesc_usage (s := readMap s) (d := d) h
    have same : descUsage h (loseDescCore d s) = descUsage h (clearDesc d (readMap s))
        ∧ cellUsage h (loseDescCore d s) = cellUsage h (clearDesc d (readMap s)) := by
      simp only [descUsage, cellUsage, State.cellUsedBy, desc, map, and_self]
    omega

end

end Sys2Proof.Machine
end

section
/-! PROOF. The lowest free cells given to a descriptor, and what that makes of a host's usage (R84, R86, R87). -/

namespace Sys2Proof.Machine

open Sys2Proof

/-! ## Counting -/

theorem countP_le_add {α : Type} {p q r : α → Bool} {xs : List α} (cover : ∀ a, r a = true → p a = true ∨ q a = true) :
    xs.countP r ≤ xs.countP p + xs.countP q := by
  induction xs with
  | nil => simp
  | cons x xs ih =>
    simp only [List.countP_cons]
    have here := cover x
    cases hp : p x <;> cases hq : q x <;> cases hr : r x <;> simp_all <;> omega

theorem countP_eq_le_one {α : Type} [DecidableEq α] {xs : List α} (nodup : xs.Nodup) (a : α) :
    (xs.countP fun x => x = a) ≤ 1 := by
  have once := List.nodup_iff_count_le_one.mp nodup a
  simpa [List.count, beq_eq_decide] using once

theorem countP_mem_le {α : Type} [DecidableEq α] {xs : List α} (nodup : xs.Nodup) (ys : List α) :
    (xs.countP fun x => x ∈ ys) ≤ ys.length := by
  induction ys with
  | nil => simp
  | cons y ys ih =>
    have cover : (xs.countP fun x => x ∈ y :: ys) ≤ (xs.countP fun x => x = y) + (xs.countP fun x => x ∈ ys) :=
      countP_le_add fun a mem => by simpa using mem
    have once := countP_eq_le_one nodup y
    rw [List.length_cons]
    omega

theorem allCells_nodup : allCells.Nodup := List.nodup_finRange 128

theorem allDescs_nodup : allDescs.Nodup := List.nodup_finRange 48

/-! ## The lowest free cells (R84) -/

/-- The n lowest-numbered free cells. -/
def State.lowestCells (s : State) (n : Nat) : List CellId := (allCells.filter fun c => s.mapEntry c = .free).take n

section
variable {s : State} {d : DescId} {pos n : Nat} {c : CellId}

theorem State.lowestCells_nodup (s : State) (n : Nat) : (s.lowestCells n).Nodup :=
  (allCells_nodup.filter _).sublist (List.take_sublist _ _)

theorem State.lowestCells_length_le (s : State) (n : Nat) : (s.lowestCells n).length ≤ n := List.length_take_le _ _

theorem State.free_of_mem_lowestCells (mem : c ∈ s.lowestCells n) : s.mapEntry c = .free := by
  have := (List.mem_filter.mp (List.mem_of_mem_take mem)).2
  simpa using this

theorem foldl_give (d : DescId) (pos : Nat) (cs : List CellId) (nodup : cs.Nodup) (k : Nat) (s : State) :
    (cs.zipIdx k).foldl (fun s x => s.putMap x.1 (.owned d (pos + x.2))) s = s.withMap (Vector.ofFn fun c =>
      if c ∈ cs then ⟨.owned d (pos + (k + cs.idxOf c)), .sound⟩ else s.store.map.get c) := by
  induction cs generalizing k s with
  | nil =>
    have map : Vector.ofFn s.store.map.get = s.store.map := by
      ext1 i hi
      simp [Vector.get_eq_getElem]
    simp only [List.zipIdx_nil, List.foldl_nil, List.not_mem_nil, if_false, map]
    rfl
  | cons a cs ih =>
    obtain ⟨fresh, rest⟩ := List.nodup_cons.mp nodup
    rw [List.zipIdx_cons, List.foldl_cons, ih rest, State.putMap_withMap]
    congr 2
    funext c
    rcases eq_or_ne a c with rfl | ne
    · simp [fresh]
    · simp only [List.mem_cons, ne.symm, false_or, State.putMap_store_map, upd_get_ne _ _ ne,
        List.idxOf_cons_ne _ ne]
      split
      · rw [show k + 1 + List.idxOf c cs = k + (List.idxOf c cs).succ by omega]
      · rfl

@[simp] theorem State.withMap_desc (s : State) (m : Vector (Coded MapEntry) 128) (d : DescId) :
    (s.withMap m).desc d = s.desc d := rfl

theorem takeCells_withMap (d : DescId) (pos n : Nat) (s : State) : takeCells d pos n s = s.withMap (Vector.ofFn fun c =>
    if c ∈ s.lowestCells n then ⟨.owned d (pos + (s.lowestCells n).idxOf c), .sound⟩ else s.store.map.get c) := by
  have give := foldl_give d pos (s.lowestCells n) (s.lowestCells_nodup n) 0 s
  simp only [Nat.zero_add] at give
  exact give

theorem takeCells_eq (d : DescId) (pos n : Nat) (s : State) : takeCells d pos n s = s.withMap (mapGiven s d pos n) := by
  rw [takeCells_withMap, mapGiven]
  congr!

theorem State.withMap_mapEntry (s : State) (f : CellId → Coded MapEntry) (c : CellId) :
    (s.withMap (Vector.ofFn f)).mapEntry c = (f c).val := by
  simp [State.withMap, State.mapEntry, Vector.get_eq_getElem]

theorem takeCells_mapEntry (d : DescId) (pos n : Nat) (s : State) (c : CellId) : (takeCells d pos n s).mapEntry c =
    if c ∈ s.lowestCells n then .owned d (pos + (s.lowestCells n).idxOf c) else s.mapEntry c := by
  rw [takeCells_withMap, State.withMap_mapEntry]
  split <;> rfl

theorem takeCells_desc (d o : DescId) (pos n : Nat) (s : State) : (takeCells d pos n s).desc o = s.desc o := by
  rw [takeCells_eq, State.withMap_desc]

/-- The cells of other descriptors stay with them. -/
theorem takeCells_owned_ne {o : DescId} {p : Nat} (ne : o ≠ d) (owned : (takeCells d pos n s).mapEntry c = .owned o p) :
    s.mapEntry c = .owned o p := by
  rw [takeCells_mapEntry] at owned
  split at owned
  · exact absurd (MapEntry.owned.inj owned).1.symm ne
  · exact owned

/-- A cell of the descriptor is its own from before, or one of the cells given. -/
theorem takeCells_owned {p : Nat} (owned : (takeCells d pos n s).mapEntry c = .owned d p) :
    (c ∉ s.lowestCells n ∧ s.mapEntry c = .owned d p)
      ∨ (c ∈ s.lowestCells n ∧ p = pos + (s.lowestCells n).idxOf c ∧ p < pos + n) := by
  rw [takeCells_mapEntry] at owned
  split at owned
  · next mem =>
    refine .inr ⟨mem, (MapEntry.owned.inj owned).2.symm, ?_⟩
    have index := List.idxOf_lt_length_of_mem mem
    have short := s.lowestCells_length_le n
    have := (MapEntry.owned.inj owned).2
    omega
  · next other => exact .inl ⟨other, owned⟩

/-- No two cells to one position, when the cells the descriptor had stand below the positions given. -/
theorem takeCells_unique (below : ∀ c p, s.mapEntry c = .owned d p → p < pos)
    (unique : ∀ c c' p, s.mapEntry c = .owned d p → s.mapEntry c' = .owned d p → c = c') {c c' : CellId} {p : Nat}
    (owned : (takeCells d pos n s).mapEntry c = .owned d p) (owned' : (takeCells d pos n s).mapEntry c' = .owned d p) :
    c = c' := by
  rcases takeCells_owned owned with ⟨-, own⟩ | ⟨mem, index, -⟩ <;> rcases takeCells_owned owned' with ⟨-, own'⟩ | ⟨mem', index', -⟩
  · exact unique c c' p own own'
  · have := below c p own
    omega
  · have := below c' p own'
    omega
  · exact (List.idxOf_inj mem).mp (by omega)

theorem takeCells_retired (e : s.mapEntry c = .retired) : (takeCells d pos n s).mapEntry c = .retired := by
  rw [takeCells_mapEntry, if_neg, e]
  intro mem
  rw [State.free_of_mem_lowestCells mem] at e
  cases e

/-! ## Usage (R86) -/

theorem State.putDesc_desc (s : State) (d o : DescId) (x : Descriptor) :
    (s.putDesc d x).desc o = if d = o then x else s.desc o := by
  split
  · next e => rw [← e, State.putDesc_desc_same]
  · next ne => exact State.putDesc_desc_ne _ _ _ _ ne

theorem takeCells_usedBy {h : HostId} (used : (takeCells d pos n s).cellUsedBy c h = true) :
    s.cellUsedBy c h = true ∨ (c ∈ s.lowestCells n ∧ (s.desc d).usedBy h = true) := by
  obtain ⟨o, p, owned, used⟩ := State.cellUsedBy_iff.mp used
  rw [takeCells_desc] at used
  rw [takeCells_mapEntry] at owned
  split at owned
  · next mem =>
    rw [← (MapEntry.owned.inj owned).1] at used
    exact .inr ⟨mem, used⟩
  · exact .inl (State.cellUsedBy_iff.mpr ⟨o, p, owned, used⟩)

theorem takeCells_cellUsage_le (h : HostId) : cellUsage h (takeCells d pos n s) ≤ cellUsage h s + n := by
  have rise : cellUsage h (takeCells d pos n s) ≤ cellUsage h s + allCells.countP fun c => c ∈ s.lowestCells n :=
    countP_le_add fun c used => (takeCells_usedBy used).imp id fun taken => by simpa using taken.1
  have given := countP_mem_le allCells_nodup (s.lowestCells n)
  have short := s.lowestCells_length_le n
  omega

theorem takeCells_cellUsage_of_other {h : HostId} (other : (s.desc d).usedBy h = false) :
    cellUsage h (takeCells d pos n s) ≤ cellUsage h s :=
  List.countP_mono_left fun c _ used => (takeCells_usedBy used).elim id fun taken => by
    rw [other] at taken
    exact absurd taken.2 Bool.false_ne_true

theorem putDesc_descUsage_le {x : Descriptor} (h : HostId) : descUsage h (s.putDesc d x) ≤ descUsage h s + 1 := by
  have rise : descUsage h (s.putDesc d x) ≤ descUsage h s + allDescs.countP fun o => o = d := by
    refine countP_le_add fun o used => ?_
    rcases eq_or_ne d o with rfl | ne
    · exact .inr (by simp)
    · rw [State.putDesc_desc_ne _ _ _ _ ne] at used
      exact .inl used
  have once := countP_eq_le_one allDescs_nodup d
  omega

theorem putDesc_descUsage_of_imp {x : Descriptor} {h : HostId} (imp : x.usedBy h = true → (s.desc d).usedBy h = true) :
    descUsage h (s.putDesc d x) ≤ descUsage h s := by
  refine List.countP_mono_left fun o _ used => ?_
  rcases eq_or_ne d o with rfl | ne
  · rw [State.putDesc_desc_same] at used
    exact imp used
  · rwa [State.putDesc_desc_ne _ _ _ _ ne] at used

theorem putDesc_cellUsage {x : Descriptor} {h : HostId}
    (imp : (∃ c p, s.mapEntry c = .owned d p) → x.usedBy h = true → (s.desc d).usedBy h = true) :
    cellUsage h (s.putDesc d x) ≤ cellUsage h s := by
  refine List.countP_mono_left fun c _ used => ?_
  obtain ⟨o, p, owned, used⟩ := State.cellUsedBy_iff.mp used
  refine State.cellUsedBy_iff.mpr ⟨o, p, owned, ?_⟩
  rcases eq_or_ne d o with rfl | ne
  · rw [State.putDesc_desc_same] at used
    exact imp ⟨c, p, owned⟩ used
  · rwa [State.putDesc_desc_ne _ _ _ _ ne] at used

end

end Sys2Proof.Machine
end

section
/-! PROOF. The space scan and the reads of a count: what they keep, and what they leave of the hosts' records (R95,
R155, R161). -/

namespace Sys2Proof.Machine

open Sys2Proof

/-! ## What upkeep leaves of the hosts' records -/

/-- A host's space record stays, is emptied, or turns from a wait into a reservation; stream records and queues only lose
descriptors; a descriptor stays, returns to FREE, or becomes RESERVED for a host that waited. -/
structure RecordsKept (s t : State) : Prop where
  joined : t.store.joined = s.store.joined
  space : ∀ h, t.space h = s.space h ∨ t.space h = .empty
    ∨ ((∃ n k, s.space h = .waiting n k) ∧ ∃ d k, t.space h = .reserved d k)
  assembling : ∀ h, (t.stream h).assembling = (s.stream h).assembling ∨ (t.stream h).assembling = none
  openDesc : ∀ h, (t.stream h).openDesc = (s.stream h).openDesc ∨ (t.stream h).openDesc = none
  queue : ∀ h d, d ∈ t.queue h → d ∈ s.queue h
  descs : ∀ d, t.desc d = s.desc d ∨ t.desc d = Descriptor.cleared
    ∨ ∃ h n k, s.space h = .waiting n k ∧ (t.desc d).state = .reserved ∧ (t.desc d).source = h

/-- Work that the store does beside a command's own. -/
structure Upkeep (s t : State) : Prop where
  kept : StoreKept s t
  records : RecordsKept s t

section
variable {s t u : State}

theorem RecordsKept.waited (a : RecordsKept s t) {h : HostId} {n : Nat} {k : Option Nat}
    (waiting : t.space h = .waiting n k) : s.space h = .waiting n k := by
  rcases a.space h with same | empty | ⟨-, d, k', reserved⟩
  · rwa [same] at waiting
  · rw [empty] at waiting
    cases waiting
  · rw [reserved] at waiting
    cases waiting

theorem RecordsKept.trans (a : RecordsKept s t) (b : RecordsKept t u) : RecordsKept s u where
  joined := b.joined.trans a.joined
  space h := by
    rcases b.space h with same | empty | ⟨⟨n, k, waiting⟩, reserved⟩
    · rw [same]
      exact a.space h
    · exact .inr (.inl empty)
    · exact .inr (.inr ⟨⟨n, k, a.waited waiting⟩, reserved⟩)
  assembling h := by
    rcases b.assembling h with same | none
    · rw [same]
      exact a.assembling h
    · exact .inr none
  openDesc h := by
    rcases b.openDesc h with same | none
    · rw [same]
      exact a.openDesc h
    · exact .inr none
  queue h d mem := a.queue h d (b.queue h d mem)
  descs d := by
    rcases b.descs d with same | cleared | ⟨h, n, k, waiting, fresh⟩
    · rw [same]
      exact a.descs d
    · exact .inr (.inl cleared)
    · exact .inr (.inr ⟨h, n, k, a.waited waiting, fresh⟩)

theorem Upkeep.trans (a : Upkeep s t) (b : Upkeep t u) : Upkeep s u :=
  ⟨a.kept.trans b.kept, a.records.trans b.records⟩

theorem SameLinks.records (links : SameLinks s t) (joined : t.store.joined = s.store.joined) : RecordsKept s t where
  joined := joined
  space h := .inl (State.space_congr links.space h)
  assembling h := .inl (by rw [State.stream_congr links.streams])
  openDesc h := .inl (by rw [State.stream_congr links.streams])
  queue h d mem := by rwa [State.queue_congr links.inbound] at mem
  descs d := .inl (links.descs d)

theorem RecordsKept.of_store (e : t.store = s.store) : RecordsKept s t := (SameLinks.of_store e).records (by rw [e])

theorem Upkeep.refl (s : State) : Upkeep s s := ⟨.refl s, .of_store rfl⟩

theorem Upkeep.foldl {α : Type} {f : State → α → State} (each : ∀ s x, Upkeep s (f s x)) (xs : List α) (s : State) :
    Upkeep s (xs.foldl f s) := by
  induction xs generalizing s with
  | nil => exact .refl s
  | cons x xs ih => exact (each s x).trans (ih (f s x))

theorem MapRead.upkeep (a : MapRead s t) : Upkeep s t := ⟨a.kept, a.links.records (by rw [a.store])⟩

theorem clearDesc_records (d : DescId) (s : State) : RecordsKept s (clearDesc d s) where
  joined := by rw [clearDesc_eq]
  space h := by
    rw [clearDesc_space, SpaceRecord.drop_eq]
    cases s.space h with
    | empty => exact .inl rfl
    | waiting => exact .inl rfl
    | reserved d' k =>
      dsimp only
      split
      · exact .inr (.inl rfl)
      · exact .inl rfl
  assembling h := by
    rw [clearDesc_stream]
    unfold StreamRecord.drop
    dsimp only
    split
    · exact .inr rfl
    · exact .inl rfl
  openDesc h := by
    rw [clearDesc_stream]
    unfold StreamRecord.drop
    dsimp only
    split
    · exact .inr rfl
    · exact .inl rfl
  queue h d' mem := by
    rw [clearDesc_queue] at mem
    exact (List.mem_filter.mp mem).1
  descs o := by
    rw [clearDesc_desc]
    split
    · exact .inr (.inl rfl)
    · exact .inl rfl

theorem freeDesc_records (d : DescId) (s : State) : RecordsKept s (freeDesc d s) :=
  (readMapFor_mapRead d s).upkeep.records.trans (clearDesc_records d _)

theorem loseDescCore_upkeep (d : DescId) (s : State) : Upkeep s (loseDescCore d s) := by
  refine ⟨loseDescCore_kept d s, ((readMap_mapRead s).upkeep.records.trans (clearDesc_records d _)).trans (.of_store ?_)⟩
  rw [loseDescCore, transfersLost_store, State.storeFinding_eq, withFault_store]

theorem readDescCore_upkeep (d : DescId) (s : State) : Upkeep s (readDescCore d s).2 := by
  rcases read : readDescCore d s with ⟨_ | _, t⟩
  · exact (readDescCore_false read).upkeep
  · show Upkeep s t
    rw [readDescCore_true read]
    exact loseDescCore_upkeep d s

theorem readDescs_upkeep (s : State) : Upkeep s (readDescs s).2 := by
  have each : ∀ (ds : List DescId) (x : Bool × State),
      Upkeep x.2 (ds.foldl (fun x d => ((readDescCore d x.2).1 || x.1, (readDescCore d x.2).2)) x).2 := by
    intro ds
    induction ds with
    | nil => exact fun x => .refl x.2
    | cons d ds ih =>
      intro x
      rw [List.foldl_cons]
      exact (readDescCore_upkeep d x.2).trans (ih ((readDescCore d x.2).1 || x.1, (readDescCore d x.2).2))
  exact each allDescs (false, s)

end

/-! ## A space wait that ends (R92, R96) -/

/-- Nobody's reservation, and no host waits but those in the list: a host out of the list with its record emptied. -/
def spaceLeft (h : HostId) (s : State) : State := (leaveSpaceList h s).setSpace h .empty

section
variable {s : State} {h : HostId}

theorem spaceLeft_space (h g : HostId) (s : State) : (spaceLeft h s).space g = if h = g then .empty else s.space g := by
  rw [State.space]
  show (upd s.store.space h .empty).get g = _
  rw [upd_get]
  rfl

theorem spaceLeft_storeOk (waiting : ∃ n k, s.space h = .waiting n k) (ok : StoreOk s) : StoreOk (spaceLeft h s) := by
  refine (storeOk_iff _).mpr ⟨⟨ok.lists.nodup.filter _, fun g => ?_, ok.lists.queues⟩, fun d => ?_⟩
  · show g ∈ s.store.spaceList.filter _ ↔ _
    rw [spaceLeft_space, List.mem_filter, ok.lists.waiting]
    rcases eq_or_ne h g with rfl | ne
    · simp
    · simp [ne, ne.symm]
  · refine SameDesc.sound (s := s) ⟨rfl, fun g => ?_, fun _ => .rfl, fun _ => .rfl, fun _ _ => rfl, fun _ => .rfl,
      fun _ _ => id⟩ (ok.desc d)
    rw [spaceLeft_space]
    split
    · next e =>
      obtain ⟨n, k, waiting⟩ := waiting
      rw [← e, waiting]
      simp
    · exact .rfl

theorem spaceLeft_kept (waiting : ∃ n k, s.space h = .waiting n k) : StoreKept s (spaceLeft h s) where
  served := ((leaveSpaceList_work h s).trans (setSpace_work ..)).served
  entries _ := .inl rfl
  dir_ok ok := ok.of_dir rfl
  payload := id
  retired _ := id
  store_ok := spaceLeft_storeOk waiting
  transit _ := id
  usage _ _ := ⟨le_max_left .., le_max_left ..⟩

theorem spaceLeft_records (h : HostId) (s : State) : RecordsKept s (spaceLeft h s) where
  joined := rfl
  space g := by
    rw [spaceLeft_space]
    split
    · exact .inr (.inl rfl)
    · exact .inl rfl
  assembling _ := .inl rfl
  openDesc _ := .inl rfl
  queue _ _ := id
  descs _ := .inl rfl

theorem expireSpaceWait_upkeep {n : Nat} (waiting : ∃ n k, s.space h = .waiting n k) :
    Upkeep s (expireSpaceWait h n s) :=
  ⟨(spaceLeft_kept waiting).offerStore .., (spaceLeft_records h s).trans (.of_store rfl)⟩

theorem dropOverQuota_upkeep (s : State) : Upkeep s (dropOverQuota s) := by
  refine .foldl (fun s h => ?_) _ s
  cases space : s.space h with
  | empty => exact .refl s
  | reserved => exact .refl s
  | waiting n k =>
    dsimp only
    split
    · exact expireSpaceWait_upkeep ⟨n, k, space⟩
    · exact .refl s

end

/-! ## A grant of space (R95, R100) -/

/-- The descriptor that a grant reserves. -/
def State.reservedFor (s : State) (h : HostId) (n : Nat) : Descriptor :=
  ⟨.reserved, h, (s.store.joined.get h).getD 0, n, false, none⟩

/-- A descriptor and cells reserved for a host, but for the notice. -/
def spaceGiven (h : HostId) (n : Nat) (d : DescId) (s : State) : State :=
  (leaveSpaceList h (takeCells d 0 n (s.putDesc d (s.reservedFor h n)))).setSpace h (.reserved d s.settings.spaceHold)

section
variable {s : State} {h : HostId} {n : Nat} {d : DescId}

theorem lowestFree_state (lowest : lowestFree s = some d) : (s.desc d).state = .free := by
  simpa using List.find?_some lowest

theorem grantSpace_of_none (none : lowestFree s = none) : grantSpace h n s = s := by
  simp [grantSpace, none]

theorem takeCells_store (d : DescId) (pos n : Nat) (s : State) :
    (takeCells d pos n s).store = { s.store with map := (takeCells d pos n s).store.map } := by
  rw [takeCells_eq]
  rfl

theorem grantSpace_of_some (lowest : lowestFree s = some d) :
    grantSpace h n s = (spaceGiven h n d s).offerStore h (.spaceReady n) := by
  have hold : (takeCells d 0 n (s.putDesc d (s.reservedFor h n))).settings = s.settings := by
    rw [takeCells_eq]
    rfl
  have hold' : (leaveSpaceList h (takeCells d 0 n (s.putDesc d (s.reservedFor h n)))).settings = s.settings := hold
  simp only [grantSpace, lowest]
  rw [spaceGiven, ← hold']
  rfl

theorem spaceGiven_store (h : HostId) (n : Nat) (d : DescId) (s : State) : (spaceGiven h n d s).store = { s.store with
    descs := upd s.store.descs d ⟨s.reservedFor h n, .sound⟩
    map := (takeCells d 0 n (s.putDesc d (s.reservedFor h n))).store.map
    spaceList := s.store.spaceList.filter fun g => g ≠ h
    space := upd s.store.space h (.reserved d s.settings.spaceHold) } := by
  show { (takeCells d 0 n (s.putDesc d (s.reservedFor h n))).store with
    spaceList := (takeCells d 0 n (s.putDesc d (s.reservedFor h n))).store.spaceList.filter fun g => g ≠ h
    space := upd (takeCells d 0 n (s.putDesc d (s.reservedFor h n))).store.space h (.reserved d s.settings.spaceHold) } = _
  rw [takeCells_store]
  rfl

theorem spaceGiven_dir (h : HostId) (n : Nat) (d : DescId) (s : State) : (spaceGiven h n d s).dir = s.dir := by
  show (takeCells d 0 n (s.putDesc d (s.reservedFor h n))).dir = s.dir
  rw [takeCells_eq]
  rfl

theorem spaceGiven_desc (h : HostId) (n : Nat) (d o : DescId) (s : State) :
    (spaceGiven h n d s).desc o = if d = o then s.reservedFor h n else s.desc o := by
  rw [State.desc, spaceGiven_store]
  dsimp only
  rw [upd_get]
  split <;> rfl

theorem spaceGiven_space (h g : HostId) (n : Nat) (d : DescId) (s : State) :
    (spaceGiven h n d s).space g = if h = g then .reserved d s.settings.spaceHold else s.space g := by
  rw [State.space, spaceGiven_store]
  dsimp only
  rw [upd_get]
  rfl

theorem spaceGiven_stream (h g : HostId) (n : Nat) (d : DescId) (s : State) :
    (spaceGiven h n d s).stream g = s.stream g := by
  rw [State.stream, spaceGiven_store]
  rfl

theorem spaceGiven_queue (h g : HostId) (n : Nat) (d : DescId) (s : State) : (spaceGiven h n d s).queue g = s.queue g := by
  rw [State.queue, spaceGiven_store]
  rfl

theorem spaceGiven_mapEntry (h : HostId) (n : Nat) (d : DescId) (s : State) (c : CellId) :
    (spaceGiven h n d s).mapEntry c = (takeCells d 0 n (s.putDesc d (s.reservedFor h n))).mapEntry c := by
  rw [State.mapEntry, spaceGiven_store]
  rfl

/-- A FREE descriptor owns no cell. -/
theorem StoreOk.no_cell_of_free (ok : StoreOk s) (free : (s.desc d).state = .free) (c : CellId) (p : Nat) :
    s.mapEntry c ≠ .owned d p := fun owned => ((ok.desc d).cells c p owned).1 free

theorem spaceGiven_storeOk (ok : StoreOk s) (free : (s.desc d).state = .free) (open_record : ∀ o k, s.space h ≠ .reserved o k) :
    StoreOk (spaceGiven h n d s) := by
  refine (storeOk_iff _).mpr ⟨⟨?_, fun g => ?_, fun g => ?_⟩, fun o => ?_⟩
  · rw [spaceGiven_store]
    exact ok.lists.nodup.filter _
  · rw [spaceGiven_space, spaceGiven_store]
    show g ∈ s.store.spaceList.filter _ ↔ _
    rw [List.mem_filter, ok.lists.waiting]
    rcases eq_or_ne h g with rfl | ne
    · simp
    · simp [ne, ne.symm]
  · rw [spaceGiven_queue]
    exact ok.lists.queues g
  · rcases eq_or_ne d o with rfl | ne
    · have here : (spaceGiven h n d s).desc d = s.reservedFor h n := by rw [spaceGiven_desc, if_pos rfl]
      have was := ok.desc d
      have no_cell : ∀ c p, (s.putDesc d (s.reservedFor h n)).mapEntry c ≠ .owned d p := ok.no_cell_of_free free
      constructor
      · intro g
        rw [here, spaceGiven_space]
        rcases eq_or_ne h g with rfl | ne
        · simp [State.reservedFor]
        · have none := was.reserved g
          simp only [free, reduceCtorEq, false_and, iff_false] at none
          simp [ne, none, State.reservedFor]
      · intro g
        have none := was.assembling g
        simp only [free, reduceCtorEq, false_and, iff_false] at none
        simp [here, spaceGiven_stream, none, State.reservedFor]
      · simp [here, State.reservedFor]
      · intro g
        have none := was.opened g
        simp only [free, reduceCtorEq, false_and, iff_false] at none
        simp [here, spaceGiven_stream, none, State.reservedFor]
      · intro g
        have none := was.queued g
        simp only [free, reduceCtorEq, or_self, false_and, iff_false] at none
        simp [here, spaceGiven_queue, none, State.reservedFor]
      · simp [here, State.reservedFor]
      · simp [here, State.reservedFor]
      · intro c p owned
        rw [spaceGiven_mapEntry] at owned
        rcases takeCells_owned owned with ⟨-, own⟩ | ⟨-, -, below⟩
        · exact absurd own (no_cell c p)
        · rw [here]
          exact ⟨nofun, by simpa [State.reservedFor] using below⟩
      · intro c c' p owned owned'
        rw [spaceGiven_mapEntry] at owned owned'
        exact takeCells_unique (fun c p own => absurd own (no_cell c p)) (fun c _ p own => absurd own (no_cell c p)) owned owned'
    · refine SameDesc.sound (s := s) ⟨?_, fun g => ?_, fun g => ?_, fun g => ?_, fun g _ => ?_, fun g => ?_,
        fun c p owned => ?_⟩ (ok.desc o)
      · rw [spaceGiven_desc, if_neg ne]
      · rw [spaceGiven_space]
        split
        · next e =>
          subst e
          simp [ne, open_record]
        · exact .rfl
      · rw [spaceGiven_stream]
      · rw [spaceGiven_stream]
      · rw [spaceGiven_stream]
      · rw [spaceGiven_queue]
      · rw [spaceGiven_mapEntry] at owned
        exact takeCells_owned_ne (s := s.putDesc d (s.reservedFor h n)) ne.symm owned

theorem spaceGiven_usage (ok : StoreOk s) (free : (s.desc d).state = .free) (g : HostId) :
    descUsage g (spaceGiven h n d s) ≤ descUsage g s + (if g = h then 1 else 0)
      ∧ cellUsage g (spaceGiven h n d s) ≤ cellUsage g s + (if g = h then n else 0) := by
  have descs : descUsage g (spaceGiven h n d s) = descUsage g (s.putDesc d (s.reservedFor h n)) := by
    simp only [descUsage, spaceGiven_desc, State.putDesc_desc]
  have cells : cellUsage g (spaceGiven h n d s) = cellUsage g (takeCells d 0 n (s.putDesc d (s.reservedFor h n))) := by
    have desc : ∀ o, (spaceGiven h n d s).desc o = (takeCells d 0 n (s.putDesc d (s.reservedFor h n))).desc o := fun o => by
      rw [takeCells_desc, spaceGiven_desc, State.putDesc_desc]
    simp only [cellUsage, State.cellUsedBy, spaceGiven_mapEntry, desc]
  have before : cellUsage g (s.putDesc d (s.reservedFor h n)) ≤ cellUsage g s :=
    putDesc_cellUsage fun ⟨c, p, owned⟩ => absurd owned (ok.no_cell_of_free free c p)
  rw [descs, cells]
  rcases eq_or_ne g h with rfl | ne
  · rw [if_pos rfl, if_pos rfl]
    have := takeCells_cellUsage_le (s := s.putDesc d (s.reservedFor g n)) (d := d) (pos := 0) (n := n) g
    exact ⟨putDesc_descUsage_le g, by omega⟩
  · rw [if_neg ne, if_neg ne]
    have other : (s.reservedFor h n).usedBy g = false := by simp [Descriptor.usedBy, State.reservedFor, ne.symm]
    have := takeCells_cellUsage_of_other (s := s.putDesc d (s.reservedFor h n)) (d := d) (pos := 0) (n := n) (h := g)
      (by rw [State.putDesc_desc_same]; exact other)
    exact ⟨putDesc_descUsage_of_imp fun used => absurd used (by rw [other]; exact Bool.false_ne_true), by omega⟩

/-- A grant to a host without a reservation, for a request that fits. -/
theorem grantSpace_kept (open_record : ∀ o k, s.space h ≠ .reserved o k) (room : fits h n s = true) :
    StoreKept s (grantSpace h n s) := by
  cases lowest : lowestFree s with
  | none =>
    rw [grantSpace_of_none lowest]
    exact .refl s
  | some d =>
    rw [grantSpace_of_some lowest]
    refine StoreKept.offerStore ?_ _ _
    have free := lowestFree_state lowest
    have entry : ∀ l, (spaceGiven h n d s).entry l = s.entry l := State.entry_of_dir (spaceGiven_dir h n d s)
    constructor
    · exact ((((putDesc_work ..).trans (takeCells_work ..)).trans (leaveSpaceList_work ..)).trans (setSpace_work ..)).served
    · exact fun l => .inl (entry l)
    · exact fun ok => ok.of_dir (spaceGiven_dir h n d s)
    · intro ok
      rw [PayloadOk, spaceGiven_store]
      exact ok
    · intro c e
      rw [spaceGiven_mapEntry]
      exact takeCells_retired e
    · exact fun ok => spaceGiven_storeOk ok free open_record
    · intro _ carried
      refine carried.update (fun l x e => by rwa [entry] at e) fun l x e => ?_
      rw [entry] at e
      have ne : d ≠ x.desc := by
        rintro rfl
        rcases (carried l x e).1 with state | state <;> · rw [free] at state; cases state
      rw [spaceGiven_desc, if_neg ne]
      exact .refl _
    · intro ok g
      have rise := spaceGiven_usage (n := n) (h := h) ok free g
      obtain ⟨⟨descs, cells⟩, -⟩ := (fits_iff ..).mp room
      rcases eq_or_ne g h with rfl | ne
      · rw [if_pos rfl, if_pos rfl] at rise
        omega
      · rw [if_neg ne, if_neg ne] at rise
        omega

theorem grantSpace_records (waiting : ∃ n k, s.space h = .waiting n k) : RecordsKept s (grantSpace h n s) := by
  cases lowest : lowestFree s with
  | none =>
    rw [grantSpace_of_none lowest]
    exact .of_store rfl
  | some d =>
    rw [grantSpace_of_some lowest]
    refine RecordsKept.trans (t := spaceGiven h n d s) ⟨?_, fun g => ?_, fun g => ?_, fun g => ?_, fun g o mem => ?_, fun o => ?_⟩ (.of_store rfl)
    · rw [spaceGiven_store]
    · rw [spaceGiven_space]
      split
      · next e =>
        rw [← e]
        exact .inr (.inr ⟨waiting, d, _, rfl⟩)
      · exact .inl rfl
    · rw [spaceGiven_stream]
      exact .inl rfl
    · rw [spaceGiven_stream]
      exact .inl rfl
    · rwa [spaceGiven_queue] at mem
    · rw [spaceGiven_desc]
      split
      · obtain ⟨m, k, waiting⟩ := waiting
        exact .inr (.inr ⟨h, m, k, waiting, rfl, rfl⟩)
      · exact .inl rfl

theorem scanHeads_upkeep (hs : List HostId) (s : State) : Upkeep s (scanHeads hs s).1 := by
  induction hs generalizing s with
  | nil => exact .refl s
  | cons h rest ih =>
    cases space : s.space h with
    | empty =>
      simp only [scanHeads, space]
      exact .refl s
    | reserved =>
      simp only [scanHeads, space]
      exact .refl s
    | waiting n k =>
      simp only [scanHeads, space]
      split
      · next room =>
        have grant : Upkeep s (grantSpace h n s) :=
          ⟨grantSpace_kept (by rw [space]; nofun) room, grantSpace_records ⟨n, k, space⟩⟩
        exact grant.trans (ih _)
      · exact .refl s

theorem spaceScan_upkeep (s : State) : Upkeep s (spaceScan s).1 := by
  have dropped := dropOverQuota_upkeep s
  unfold spaceScan
  dsimp only
  split
  · exact dropped
  · exact ((dropped.trans (readDescs_upkeep _)).trans (readMap_mapRead _).upkeep).trans (scanHeads_upkeep _ _)

theorem readForCount_upkeep (s : State) : Upkeep s (readForCount s) := by
  have read := (readDescs_upkeep s).trans (readMap_mapRead _).upkeep
  unfold readForCount
  dsimp only
  split
  · exact read.trans (spaceScan_upkeep _)
  · exact read

theorem readDesc_upkeep (d : DescId) (s : State) : Upkeep s (readDesc d s).2 := by
  have read := readDescCore_upkeep d s
  unfold readDesc
  dsimp only
  split
  · exact read.trans (spaceScan_upkeep _)
  · exact read

theorem readDesc_false {t : State} (read : readDesc d s = (false, t)) : MapRead s t := by
  unfold readDesc at read
  rcases core : readDescCore d s with ⟨b, u⟩
  rw [core] at read
  have lost : b = false := (Prod.mk.inj read).1
  rw [lost] at core read
  have same : u = t := (Prod.mk.inj read).2
  rw [← same]
  exact readDescCore_false core

end

end Sys2Proof.Machine
end

section
/-! PROOF. The store stays sound where a command rewrites one descriptor with the records that name it: space waits and
reservations, BEGIN, COMMIT, UNWIND, OPEN (R92 to R125). -/

namespace Sys2Proof.Machine

open Sys2Proof

section
variable {s t : State} {d : DescId}

/-- A step that rewrites one descriptor and what names it, after others. -/
theorem StoreKept.then_at_desc {u : State} (a : StoreKept s u) (d : DescId) (served : Served u t) (dir : t.dir = u.dir)
    (payload : t.store.payload = u.store.payload) (retired : ∀ c, u.mapEntry c = .retired → t.mapEntry c = .retired)
    (lists : StoreOk u → ListsSound t) (others : StoreOk u → ∀ o, d ≠ o → SameDesc u t o)
    (here : StoreOk u → DescSound t d)
    (carry : StoreOk s → TransitOk s → ∀ l x, (u.entry l).transit = some x → x.desc = d → CarriesAs (u.desc d) (t.desc d))
    (usage : StoreOk u → ∀ h, descUsage h t ≤ max (descUsage h u) u.store.descQuota
      ∧ cellUsage h t ≤ max (cellUsage h u) u.store.cellQuota) : StoreKept s t where
  served := a.served.trans served
  entries l := by
    rw [State.entry_of_dir dir l]
    exact a.entries l
  dir_ok ok := (a.dir_ok ok).of_dir dir
  payload ok := by
    rw [PayloadOk, payload]
    exact a.payload ok
  retired c e := retired c (a.retired c e)
  store_ok ok := (storeOk_iff t).mpr ⟨lists (a.store_ok ok), fun o => by
    rcases eq_or_ne d o with rfl | ne
    · exact here (a.store_ok ok)
    · exact (others (a.store_ok ok) o ne).sound ((a.store_ok ok).desc o)⟩
  transit ok carried := (a.transit ok carried).update (fun l x e => (State.entry_of_dir dir l) ▸ e) fun l x e => by
    rw [State.entry_of_dir dir] at e
    rcases eq_or_ne d x.desc with same | ne
    · have := carry ok carried l x e same.symm
      rwa [same] at this
    · rw [(others (a.store_ok ok) x.desc ne).desc]
      exact .refl _
  usage ok h := by
    have before := a.usage ok h
    have after := usage (a.store_ok ok) h
    rw [a.served.descQuota, a.served.cellQuota] at after
    omega

theorem StoreKept.at_desc (d : DescId) (served : Served s t) (dir : t.dir = s.dir)
    (payload : t.store.payload = s.store.payload) (retired : ∀ c, s.mapEntry c = .retired → t.mapEntry c = .retired)
    (lists : StoreOk s → ListsSound t) (others : StoreOk s → ∀ o, d ≠ o → SameDesc s t o)
    (here : StoreOk s → DescSound t d)
    (carry : StoreOk s → TransitOk s → ∀ l x, (s.entry l).transit = some x → x.desc = d → CarriesAs (s.desc d) (t.desc d))
    (usage : StoreOk s → ∀ h, descUsage h t ≤ max (descUsage h s) s.store.descQuota
      ∧ cellUsage h t ≤ max (cellUsage h s) s.store.cellQuota) : StoreKept s t :=
  (StoreKept.refl s).then_at_desc d served dir payload retired lists others here carry usage

/-- The usage of every host where no cell moves and the descriptor is used by no one new. -/
theorem usage_of_used (map : ∀ c, t.mapEntry c = s.mapEntry c) (others : ∀ o, d ≠ o → t.desc o = s.desc o)
    (used : ∀ h, (t.desc d).usedBy h = true → (s.desc d).usedBy h = true) (h : HostId) :
    descUsage h t ≤ max (descUsage h s) s.store.descQuota ∧ cellUsage h t ≤ max (cellUsage h s) s.store.cellQuota := by
  have each : ∀ o, (t.desc o).usedBy h = true → (s.desc o).usedBy h = true := fun o here => by
    rcases eq_or_ne d o with rfl | ne
    · exact used h here
    · rwa [others o ne] at here
  refine ⟨le_max_of_le_left (List.countP_mono_left fun o _ => each o),
    le_max_of_le_left (List.countP_mono_left fun c _ here => ?_)⟩
  obtain ⟨o, p, owned, here⟩ := State.cellUsedBy_iff.mp here
  rw [map] at owned
  exact State.cellUsedBy_iff.mpr ⟨o, p, owned, each o here⟩

/-! ## Records that are there already -/

theorem upd_get_self {α : Type} {n : Nat} (v : Vector α n) (i : Fin n) : upd v i (v.get i) = v := by
  simp [upd, Vector.get_eq_getElem]

theorem setSpace_self {h : HostId} {r : SpaceRecord} (space : s.space h = r) : s.setSpace h r = s := by
  rw [← space]
  show { s with store := { s.store with space := upd s.store.space h (s.store.space.get h) } } = s
  rw [upd_get_self]

theorem setStream_self {h : HostId} {r : StreamRecord} (stream : s.stream h = r) : s.setStream h r = s := by
  rw [← stream]
  show { s with store := { s.store with streams := upd s.store.streams h (s.store.streams.get h) } } = s
  rw [upd_get_self]

theorem State.setSpace_space (s : State) (h g : HostId) (r : SpaceRecord) :
    (s.setSpace h r).space g = if h = g then r else s.space g := by
  split
  · next e => rw [← e, State.setSpace_space_same]
  · next ne => exact State.setSpace_space_ne _ _ _ _ ne

theorem State.setStream_stream (s : State) (h g : HostId) (r : StreamRecord) :
    (s.setStream h r).stream g = if h = g then r else s.stream g := by
  split
  · next e => rw [← e, State.setStream_stream_same]
  · next ne => exact State.setStream_stream_ne _ _ _ _ ne

theorem StoreKept.setStorePath (s : State) (p : List StoreItem) : StoreKept s (s.setStorePath p) :=
  .of_same (setStorePath_served ..) rfl (fun _ => rfl) (fun _ => rfl) rfl rfl rfl rfl id

/-! ## Space records (R92 to R98) -/

theorem freeDesc_space (d : DescId) (s : State) (h : HostId) : (freeDesc d s).space h = (s.space h).drop d := by
  rw [freeDesc, clearDesc_space, State.space_congr (readMapFor_mapRead d s).links.space]

/-- A reservation's end: its descriptor and its record at once. -/
theorem freeReserved_eq {h : HostId} {k : Nat} (space : s.space h = .reserved d k) :
    (freeDesc d s).setSpace h .empty = freeDesc d s :=
  setSpace_self (by rw [freeDesc_space, space, SpaceRecord.drop_eq]; simp)

/-- A descriptor that is neither queued nor open carries no lease. -/
theorem freeDesc_kept_of_state (queued : StoreOk s → (s.desc d).state ≠ .queued)
    (opened : StoreOk s → (s.desc d).state ≠ .opened) : StoreKept s (freeDesc d s) :=
  (StoreKept.refl s).then_freeDesc fun ok carried => carried.not_carriedIn (queued ok) (opened ok)

theorem freeReserved_kept {h : HostId} {k : Nat} (space : s.space h = .reserved d k) : StoreKept s (freeDesc d s) := by
  have state : StoreOk s → (s.desc d).state = .reserved := fun ok => (((ok.desc d).reserved h).mp ⟨k, space⟩).1
  exact freeDesc_kept_of_state (fun ok => by rw [state ok]; nofun) fun ok => by rw [state ok]; nofun

theorem freeAssembling_kept {h : HostId} (assembling : (s.stream h).assembling = some d) :
    StoreKept s (freeDesc d s) := by
  have state : StoreOk s → (s.desc d).state = .assembling := fun ok => (((ok.desc d).assembling h).mp assembling).1
  exact freeDesc_kept_of_state (fun ok => by rw [state ok]; nofun) fun ok => by rw [state ok]; nofun

/-- A host at the tail of the space waiter list. -/
def spaceJoined (h : HostId) (n : Nat) (k : Option Nat) (s : State) : State :=
  ({ s with store := { s.store with spaceList := s.store.spaceList ++ [h] } }).setSpace h (.waiting n k)

theorem spaceJoined_space (h g : HostId) (n : Nat) (k : Option Nat) (s : State) :
    (spaceJoined h n k s).space g = if h = g then .waiting n k else s.space g := by
  rw [spaceJoined, State.setSpace_space]
  rfl

theorem spaceJoined_storeOk {h : HostId} {n : Nat} {k : Option Nat} (empty : s.space h = .empty) (ok : StoreOk s) :
    StoreOk (spaceJoined h n k s) := by
  have fresh : h ∉ s.store.spaceList := by
    rw [ok.lists.waiting, empty]
    simp
  refine (storeOk_iff _).mpr ⟨⟨?_, fun g => ?_, ok.lists.queues⟩, fun o => ?_⟩
  · exact List.nodup_append.mpr ⟨ok.lists.nodup, List.nodup_singleton h, fun a mem b here => by
      rw [List.mem_singleton.mp here]
      exact ne_of_mem_of_not_mem mem fresh⟩
  · show g ∈ s.store.spaceList ++ [h] ↔ _
    rw [spaceJoined_space, List.mem_append, List.mem_singleton, ok.lists.waiting]
    rcases eq_or_ne h g with rfl | ne
    · simp
    · simp [ne, ne.symm]
  · refine SameDesc.sound (s := s) ⟨rfl, fun g => ?_, fun _ => .rfl, fun _ => .rfl, fun _ _ => rfl, fun _ => .rfl,
      fun _ _ => id⟩ (ok.desc o)
    rw [spaceJoined_space]
    split
    · next e =>
      rw [← e, empty]
      simp
    · exact .rfl

theorem spaceJoined_kept {h : HostId} {n : Nat} {k : Option Nat} (empty : s.space h = .empty) :
    StoreKept s (spaceJoined h n k s) where
  served := by constructor <;> intros <;> rfl
  entries _ := .inl rfl
  dir_ok ok := ok.of_dir rfl
  payload := id
  retired _ := id
  store_ok := spaceJoined_storeOk empty
  transit _ := id
  usage _ _ := ⟨le_max_left .., le_max_left ..⟩

theorem StoreKept.replyQuota (a : StoreKept s t) (h : HostId) (id : Nat) : StoreKept s (replyQuota h id t) := a.reply ..

theorem StoreKept.replyNoSpace (a : StoreKept s t) (h : HostId) (id : Nat) : StoreKept s (replyNoSpace h id t) := a.reply ..

/-- SPACE_WAIT (R93). -/
theorem spaceWaitTaken_kept (h : HostId) (id : Nat) (cells wait : Word) (s : State) :
    StoreKept s (spaceWaitTaken h id cells wait s) := by
  have count := readForCount_upkeep s
  have refused : ∀ {t : State} (n : Nat), StoreKept s t →
      StoreKept s (if quotaTest h n t then replyNoSpace h id t else replyQuota h id t) := by
    intro t n kept
    split
    · exact kept.replyNoSpace ..
    · exact kept.replyQuota ..
  unfold spaceWaitTaken
  dsimp only
  split
  · exact (StoreKept.refl s).reply ..
  split
  · exact (StoreKept.refl s).reply ..
  next empty =>
  rw [not_ne_iff] at empty
  split
  · exact count.kept.replyQuota ..
  split
  · have still : (readForCount s).space h = .empty := by
      rcases count.records.space h with same | none | ⟨⟨n, k, waiting⟩, -⟩
      · rw [same, empty]
      · exact none
      · rw [empty] at waiting
        cases waiting
    split
    · next room =>
      unfold spaceGranted
      split
      · exact count.kept.replyNoSpace ..
      · exact (count.kept.trans (grantSpace_kept (by rw [still]; nofun) room)).reply ..
    split
    · exact refused _ count.kept
    · exact (count.kept.trans (spaceJoined_kept still)).reply ..
  split
  · exact refused _ count.kept
  · exact (spaceJoined_kept empty).reply ..

/-- SPACE_CANCEL (R98). -/
theorem spaceCancelTaken_kept (h : HostId) (id : Nat) (s : State) : StoreKept s (spaceCancelTaken h id s) := by
  unfold spaceCancelTaken
  cases space : s.space h with
  | empty => exact (StoreKept.refl s).reply ..
  | waiting n k => exact ((spaceLeft_kept ⟨n, k, space⟩).trans (spaceScan_upkeep _).kept).reply ..
  | reserved d k =>
    dsimp only
    rw [freeReserved_eq space]
    exact ((freeReserved_kept space).trans (spaceScan_upkeep _).kept).reply ..

theorem expireSpaceWait_scan_kept {h : HostId} {n : Nat} {k : Option Nat} (space : s.space h = .waiting n k) :
    StoreKept s (spaceScan (expireSpaceWait h n s)).1 :=
  (expireSpaceWait_upkeep ⟨n, k, space⟩).kept.trans (spaceScan_upkeep _).kept

theorem lapse_kept {h : HostId} {k : Nat} (n : Notice) (space : s.space h = .reserved d k) :
    StoreKept s (spaceScan (((freeDesc d s).setSpace h .empty).offerStore h n)).1 := by
  rw [freeReserved_eq space]
  exact ((freeReserved_kept space).offerStore ..).trans (spaceScan_upkeep _).kept

end

end Sys2Proof.Machine
end

section
/-! PROOF. BEGIN keeps the store sound, in each of its four ways to a descriptor and cells (R104 to R108). -/

namespace Sys2Proof.Machine

open Sys2Proof

section
variable {s t : State} {d : DescId} {h : HostId} {m : Message}

/-- A message begun in descriptor d: k cells given to it from a position on, and h's space record replaced. -/
def begun (h : HostId) (d : DescId) (session : Nat) (m : Message) (pos k : Nat) (r : SpaceRecord) (s : State) : State :=
  takeCells d pos k ((assemble h d session m s).setSpace h r)

/-- The descriptor of a message begun. -/
def Message.begunBy (m : Message) (h : HostId) (session : Nat) : Descriptor :=
  ⟨.assembling, h, session, cellsNeeded m.length, false, some m⟩

theorem takeCells_zero (d : DescId) (pos : Nat) (s : State) : takeCells d pos 0 s = s := by
  simp [takeCells]

section
variable (h d : _) (session : Nat) (m : Message) (pos k : Nat) (r : SpaceRecord) (s : State)

theorem begun_store : (begun h d session m pos k r s).store = { s.store with
    descs := upd s.store.descs d ⟨m.begunBy h session, .sound⟩
    map := (takeCells d pos k ((assemble h d session m s).setSpace h r)).store.map
    streams := upd s.store.streams h { s.stream h with assembling := some d }
    space := upd s.store.space h r } := by
  rw [begun, takeCells_store]
  rfl

theorem begun_dir : (begun h d session m pos k r s).dir = s.dir := by
  rw [begun, takeCells_eq]
  rfl

theorem begun_desc (o : DescId) :
    (begun h d session m pos k r s).desc o = if d = o then m.begunBy h session else s.desc o := by
  rw [State.desc, begun_store]
  dsimp only
  rw [upd_get]
  split <;> rfl

theorem begun_space (g : HostId) : (begun h d session m pos k r s).space g = if h = g then r else s.space g := by
  rw [State.space, begun_store]
  dsimp only
  rw [upd_get]
  rfl

theorem begun_stream (g : HostId) : (begun h d session m pos k r s).stream g =
    if h = g then { s.stream h with assembling := some d } else s.stream g := by
  rw [State.stream, begun_store]
  dsimp only
  rw [upd_get]
  rfl

theorem begun_queue (g : HostId) : (begun h d session m pos k r s).queue g = s.queue g := by
  rw [State.queue, begun_store]
  rfl

theorem begun_mapEntry (c : CellId) : (begun h d session m pos k r s).mapEntry c =
    (takeCells d pos k ((assemble h d session m s).setSpace h r)).mapEntry c := rfl

end

/-- How a message comes by its descriptor: a FREE one, or the host's reserved one with its record emptied. -/
def ComesBy (s : State) (h : HostId) (d : DescId) (r : SpaceRecord) : Prop :=
  ((s.desc d).state = .free ∧ r = s.space h) ∨ ((∃ j, s.space h = .reserved d j) ∧ r = .empty)

variable {session pos k : Nat} {r : SpaceRecord}

theorem ComesBy.state (comes : ComesBy s h d r) (ok : StoreOk s) :
    (s.desc d).state = .free ∨ ((s.desc d).state = .reserved ∧ (s.desc d).source = h) := by
  rcases comes with ⟨free, -⟩ | ⟨reserved, -⟩
  · exact .inl free
  · exact .inr (((ok.desc d).reserved h).mp reserved)

theorem begun_desc_sound (comes : ComesBy s h d r) (length : m.length ≤ Config.maxLength) (written : m.written = 0)
    (below : ∀ c p, s.mapEntry c = .owned d p → p < pos) (fill : pos + k ≤ cellsNeeded m.length) (ok : StoreOk s) :
    DescSound (begun h d session m pos k r s) d := by
  have was := ok.desc d
  have state := comes.state ok
  have here : (begun h d session m pos k r s).desc d = m.begunBy h session := by rw [begun_desc, if_pos rfl]
  have not_open : ∀ g, (s.stream g).openDesc ≠ some d := fun g e => by
    have := ((was.opened g).mp e).1
    rcases state with free | ⟨reserved, -⟩
    · rw [free] at this
      cases this
    · rw [reserved] at this
      cases this
  have not_queued : ∀ g, d ∉ s.queue g := fun g mem => by
    have := ((was.queued g).mp mem).1
    rcases state with free | ⟨reserved, -⟩
    · rw [free] at this
      simp at this
    · rw [reserved] at this
      simp at this
  have not_assembling : ∀ g, (s.stream g).assembling ≠ some d := fun g e => by
    have := ((was.assembling g).mp e).1
    rcases state with free | ⟨reserved, -⟩
    · rw [free] at this
      cases this
    · rw [reserved] at this
      cases this
  have open_same : ∀ g, ((begun h d session m pos k r s).stream g).openDesc = (s.stream g).openDesc := fun g => by
    rw [begun_stream]
    split
    · next e => rw [e]
    · rfl
  constructor
  · intro g
    rw [here, begun_space]
    refine ⟨fun ⟨j, reserved⟩ => ?_, fun ⟨state, _⟩ => nomatch state⟩
    split at reserved
    · next e =>
      rcases comes with ⟨free, same⟩ | ⟨-, empty⟩
      · have := (was.reserved h).mp ⟨j, same ▸ reserved⟩
        rw [free] at this
        cases this.1
      · rw [empty] at reserved
        cases reserved
    · next ne =>
      have := (was.reserved g).mp ⟨j, reserved⟩
      rcases state with free | ⟨-, source⟩
      · rw [free] at this
        cases this.1
      · exact absurd (source.symm.trans this.2) ne
  · intro g
    rw [here, begun_stream]
    rcases eq_or_ne h g with rfl | ne
    · simp [Message.begunBy]
    · rw [if_neg ne]
      simp [Message.begunBy, ne, not_assembling]
  · rw [here]
    exact fun _ => rfl
  · intro g
    rw [here, open_same]
    simp [Message.begunBy, not_open]
  · intro g
    rw [here, begun_queue]
    simp [Message.begunBy, not_queued]
  · intro m' msg
    rw [here] at msg ⊢
    cases msg
    exact ⟨length, rfl, by omega, .inl (by omega)⟩
  · intro g m' opened
    rw [open_same] at opened
    exact absurd opened (not_open g)
  · intro c p owned
    rw [begun_mapEntry] at owned
    rw [here]
    refine ⟨nofun, ?_⟩
    rcases takeCells_owned owned with ⟨-, own⟩ | ⟨-, -, within⟩
    · exact lt_of_lt_of_le (Nat.lt_add_right k (below c p own)) fill
    · exact lt_of_lt_of_le within fill
  · intro c c' p owned owned'
    exact takeCells_unique (s := (assemble h d session m s).setSpace h r) below was.unique owned owned'

theorem begun_sameDesc {o : DescId} (comes : ComesBy s h d r) (idle : (s.stream h).assembling = none) (ne : d ≠ o) :
    SameDesc s (begun h d session m pos k r s) o where
  desc := by rw [begun_desc, if_neg ne]
  reserved g := by
    rw [begun_space]
    split
    · next e =>
      subst e
      rcases comes with ⟨-, rfl⟩ | ⟨⟨j, reserved⟩, rfl⟩
      · exact .rfl
      · simp [reserved, ne]
    · exact .rfl
  assembling g := by
    rw [begun_stream]
    split
    · next e =>
      subst e
      simp [idle, ne]
    · exact .rfl
  opened g := by
    rw [begun_stream]
    split
    · next e => rw [e]
    · exact .rfl
  readPos g _ := by
    rw [begun_stream]
    split
    · next e => rw [e]
    · rfl
  queue g := by rw [begun_queue]
  cells c p owned := takeCells_owned_ne (s := (assemble h d session m s).setSpace h r) ne.symm owned

theorem begun_usage (comes : ComesBy s h d r) (descs : StoreOk s → (s.desc d).state = .free → descUsage h s + 1 ≤ s.store.descQuota)
    (cells : k = 0 ∨ cellUsage h s + k ≤ s.store.cellQuota) (ok : StoreOk s) (g : HostId) :
    descUsage g (begun h d session m pos k r s) ≤ max (descUsage g s) s.store.descQuota
      ∧ cellUsage g (begun h d session m pos k r s) ≤ max (cellUsage g s) s.store.cellQuota := by
  have put : ∀ o, (begun h d session m pos k r s).desc o = (s.putDesc d (m.begunBy h session)).desc o := fun o => by
    rw [begun_desc, State.putDesc_desc]
  have descs_eq : descUsage g (begun h d session m pos k r s) = descUsage g (s.putDesc d (m.begunBy h session)) := by
    simp only [descUsage, put]
  have cells_eq : cellUsage g (begun h d session m pos k r s)
      = cellUsage g (takeCells d pos k (s.putDesc d (m.begunBy h session))) := by
    have map : ∀ c, (takeCells d pos k ((assemble h d session m s).setSpace h r)).mapEntry c
        = (takeCells d pos k (s.putDesc d (m.begunBy h session))).mapEntry c := fun c => by
      rw [takeCells_mapEntry, takeCells_mapEntry]
      rfl
    simp only [cellUsage, State.cellUsedBy, begun_mapEntry, map, put, takeCells_desc]
  rw [descs_eq, cells_eq]
  have used_iff : (m.begunBy h session).usedBy g = true ↔ h = g := by
    rw [Descriptor.usedBy, Bool.and_eq_true, decide_eq_true_iff, decide_eq_true_iff]
    exact ⟨And.right, fun e => ⟨nofun, e⟩⟩
  have before : cellUsage g (s.putDesc d (m.begunBy h session)) ≤ cellUsage g s := by
    refine putDesc_cellUsage fun ⟨c, p, owned⟩ used => ?_
    have state := comes.state ok
    rw [used_iff] at used
    rcases state with free | ⟨reserved, source⟩
    · exact absurd owned (ok.no_cell_of_free free c p)
    · simp [Descriptor.usedBy, reserved, source, used]
  rcases eq_or_ne h g with rfl | ne
  · constructor
    · rcases comes.state ok with free | ⟨reserved, source⟩
      · have rise := putDesc_descUsage_le (s := s) (d := d) (x := m.begunBy h session) h
        have := descs ok free
        omega
      · exact le_max_of_le_left (putDesc_descUsage_of_imp fun _ => by simp [Descriptor.usedBy, reserved, source])
    · have rise := takeCells_cellUsage_le (s := s.putDesc d (m.begunBy h session)) (d := d) (pos := pos) (n := k) h
      omega
  · have other : (m.begunBy h session).usedBy g = false := by
      rw [Bool.eq_false_iff, ne_eq, used_iff]
      exact ne
    have rise := takeCells_cellUsage_of_other (s := s.putDesc d (m.begunBy h session)) (d := d) (pos := pos) (n := k) (h := g)
      (by rw [State.putDesc_desc_same]; exact other)
    refine ⟨le_max_of_le_left (putDesc_descUsage_of_imp fun used => ?_), by omega⟩
    rw [other] at used
    cases used

theorem begun_served : Served s (begun h d session m pos k r s) :=
  ((((putDesc_work ..).trans (setStream_work ..)).trans (setSpace_work ..)).trans (takeCells_work ..)).served

/-- A message begun keeps what the store's steps keep. -/
theorem begun_kept (comes : ComesBy s h d r) (idle : (s.stream h).assembling = none)
    (length : m.length ≤ Config.maxLength) (written : m.written = 0)
    (below : StoreOk s → ∀ c p, s.mapEntry c = .owned d p → p < pos) (fill : pos + k ≤ cellsNeeded m.length)
    (descs : StoreOk s → (s.desc d).state = .free → descUsage h s + 1 ≤ s.store.descQuota)
    (cells : k = 0 ∨ cellUsage h s + k ≤ s.store.cellQuota) : StoreKept s (begun h d session m pos k r s) := by
  refine .at_desc d begun_served (begun_dir ..) ?_ (fun c e => ?_) (fun ok => ⟨?_, fun g => ?_, fun g => ?_⟩)
    (fun ok o ne => begun_sameDesc comes idle ne)
    (fun ok => begun_desc_sound comes length written (below ok) fill ok) (fun ok carried l x e here => ?_)
    (begun_usage comes descs cells)
  · rw [begun_store]
  · rw [begun_mapEntry]
    exact takeCells_retired e
  · rw [begun_store]
    exact ok.lists.nodup
  · rw [begun_space, begun_store]
    show g ∈ s.store.spaceList ↔ _
    rw [ok.lists.waiting]
    split
    · next e =>
      subst e
      rcases comes with ⟨-, rfl⟩ | ⟨⟨j, reserved⟩, rfl⟩
      · exact .rfl
      · simp [reserved]
    · exact .rfl
  · rw [begun_queue]
    exact ok.lists.queues g
  · intro state
    rcases comes.state ok with free | ⟨reserved, -⟩
    · rw [free] at state
      simp at state
    · rw [reserved] at state
      simp at state

/-! ## The four ways (R106, R107) -/

theorem parseBegin_spec {dest length cls tag fenceLease fenceGen carried : Word}
    (parsed : parseBegin h dest length cls tag fenceLease fenceGen carried = some m) :
    m.length ≤ Config.maxLength ∧ m.written = 0 := by
  unfold parseBegin at parsed
  split at parsed
  · split at parsed
    · cases parsed
    · next refused =>
      rw [← Option.some.inj parsed]
      exact ⟨Nat.not_lt.mp fun long => refused (.inr long), rfl⟩
  · cases parsed

theorem freeOwned_mapEntry_owned {lo : Nat} {c : CellId} {o : DescId} {p : Nat} :
    (freeOwned d lo s).mapEntry c = .owned o p ↔ s.mapEntry c = .owned o p ∧ (o = d → p < lo) := by
  rw [freeOwned_eq, mapFreed_eq, State.withMap_mapEntry, apply_ite Coded.val]
  show (if (s.mapEntry c).ownedFrom d lo = true then .free else s.mapEntry c) = MapEntry.owned o p ↔ _
  cases s.mapEntry c with
  | free => simp [MapEntry.ownedFrom]
  | retired => simp [MapEntry.ownedFrom]
  | owned d' p' =>
    by_cases e : d' = d ∧ lo ≤ p'
    · simp only [MapEntry.ownedFrom, e, and_self, decide_true, if_true, MapEntry.owned.injEq, reduceCtorEq, false_iff,
        not_and]
      rintro ⟨rfl, rfl⟩
      simp [e.2]
    · simp only [MapEntry.ownedFrom, e, decide_false, Bool.false_eq_true, if_false, MapEntry.owned.injEq, iff_self_and]
      rintro ⟨rfl, rfl⟩ same
      exact Nat.not_le.mp fun le => e ⟨same, le⟩

theorem freeOwned_kept (d : DescId) (lo : Nat) (s : State) : StoreKept s (freeOwned d lo s) := by
  have eq := freeOwned_eq d lo s
  have map : ∀ c o p, (freeOwned d lo s).mapEntry c = .owned o p → s.mapEntry c = .owned o p := fun c o p owned =>
    (freeOwned_mapEntry_owned.mp owned).1
  have retired : ∀ c, s.mapEntry c = .retired → (freeOwned d lo s).mapEntry c = .retired := fun c e => by
    rw [eq, mapFreed_eq, State.withMap_mapEntry, e]
    exact e
  have served := (freeOwned_work d lo s).served
  generalize mapFreed s d lo = v at eq
  rw [eq] at map retired served ⊢
  exact {
    served := served
    entries := fun _ => .inl rfl
    dir_ok := fun ok => ok.of_dir rfl
    payload := id
    retired := retired
    store_ok := SameLinks.storeOk ⟨fun _ => rfl, rfl, rfl, rfl, rfl⟩ map
    transit := fun _ => id
    usage := fun _ h => by
      refine ⟨le_max_left .., le_max_of_le_left (List.countP_mono_left fun c _ used => ?_)⟩
      obtain ⟨o, p, owned, used⟩ := State.cellUsedBy_iff.mp used
      exact State.cellUsedBy_iff.mpr ⟨o, p, map c o p owned, used⟩ }

theorem freeOwned_stream (d : DescId) (lo : Nat) (s : State) (h : HostId) : (freeOwned d lo s).stream h = s.stream h := by
  rw [freeOwned_eq]
  generalize mapFreed s d lo = v
  rfl

theorem freeOwned_space (d : DescId) (lo : Nat) (s : State) (h : HostId) : (freeOwned d lo s).space h = s.space h := by
  rw [freeOwned_eq]
  generalize mapFreed s d lo = v
  rfl

theorem begun_free_eq : begun h d session m 0 k (s.space h) s = takeCells d 0 k (assemble h d session m s) := by
  rw [begun, setSpace_self]
  rfl

theorem beginByAdmission_kept (id : Nat) (idle : (s.stream h).assembling = none) (length : m.length ≤ Config.maxLength)
    (written : m.written = 0) : StoreKept s (beginByAdmission h id m s) := by
  have count := readForCount_upkeep s
  have still : ((readForCount s).stream h).assembling = none := by
    rcases count.records.assembling h with same | none
    · rw [same, idle]
    · exact none
  unfold beginByAdmission
  dsimp only
  split
  · exact count.kept.replyQuota ..
  next quota =>
  split
  · exact count.kept.replyNoSpace ..
  split
  · exact count.kept.replyNoSpace ..
  split
  · exact count.kept.replyNoSpace ..
  · next d lowest =>
    rw [Bool.not_eq_true, Bool.not_eq_false', quotaTest_iff] at quota
    have free := lowestFree_state lowest
    refine StoreKept.reply (count.kept.trans ?_) ..
    rw [← begun_free_eq]
    exact begun_kept (.inl ⟨free, rfl⟩) still length written
      (fun ok c p owned => absurd owned (ok.no_cell_of_free free c p)) (by omega) (fun _ _ => quota.1) (.inr quota.2)

theorem useReservation_eq : useReservation h d m s = begun h d (s.desc d).session m pos 0 .empty s := by
  rw [begun, takeCells_zero]
  rfl

theorem StoreOk.reserved_of_space (ok : StoreOk s) {j : Nat} (space : s.space h = .reserved d j) :
    (s.desc d).state = .reserved ∧ (s.desc d).source = h := ((ok.desc d).reserved h).mp ⟨j, space⟩

/-- The reserved descriptor becomes ASSEMBLING, with k more cells. -/
theorem begun_reserved_kept {j : Nat} (space : s.space h = .reserved d j) (idle : (s.stream h).assembling = none)
    (length : m.length ≤ Config.maxLength) (written : m.written = 0)
    (below : StoreOk s → ∀ c p, s.mapEntry c = .owned d p → p < pos) (fill : pos + k ≤ cellsNeeded m.length)
    (cells : k = 0 ∨ cellUsage h s + k ≤ s.store.cellQuota) : StoreKept s (begun h d session m pos k .empty s) := by
  refine begun_kept (.inr ⟨⟨j, space⟩, rfl⟩) idle length written below fill (fun ok free => ?_) cells
  rw [(ok.reserved_of_space space).1] at free
  cases free

/-- Through upkeep a reservation stays with its descriptor. -/
theorem RecordsKept.reserved (a : RecordsKept s t) {j j' : Nat} {d' : DescId} (space : s.space h = .reserved d j)
    (space' : t.space h = .reserved d' j') : d' = d := by
  rcases a.space h with same | empty | ⟨⟨n, k, waiting⟩, -⟩
  · rw [same, space] at space'
    exact (SpaceRecord.reserved.inj space').1.symm
  · rw [empty] at space'
    cases space'
  · rw [space] at waiting
    cases waiting

theorem RecordsKept.reserved_desc (a : RecordsKept s t) (ok : StoreOk t) {j j' : Nat} (space : s.space h = .reserved d j)
    (space' : t.space h = .reserved d j') : t.desc d = s.desc d := by
  obtain ⟨state, source⟩ := ok.reserved_of_space space'
  rcases a.descs d with same | cleared | ⟨g, n, k, waiting, -, fresh⟩
  · exact same
  · rw [cleared] at state
    cases state
  · rw [← fresh, source, space] at waiting
    cases waiting

theorem beginInReservation_kept (id : Nat) {j : Nat} (space : s.space h = .reserved d j)
    (idle : (s.stream h).assembling = none) (length : m.length ≤ Config.maxLength) (written : m.written = 0) :
    StoreKept s (beginInReservation h id m d s) := by
  unfold beginInReservation
  dsimp only
  split
  · next exact_fit =>
    refine StoreKept.reply ?_ ..
    rw [useReservation_eq (pos := cellsNeeded m.length)]
    refine begun_reserved_kept space idle length written (fun ok c p owned => ?_) le_rfl (.inl rfl)
    rw [exact_fit]
    exact ((ok.desc d).cells c p owned).2
  split
  · have read := readMap_mapRead s
    have freed := freeOwned_kept d (cellsNeeded m.length) (readMap s)
    refine StoreKept.reply ((read.kept.trans (freed.trans ?_)).trans (spaceScan_upkeep _).kept) ..
    rw [useReservation_eq (pos := cellsNeeded m.length)]
    refine begun_reserved_kept (j := j) ?_ ?_ length written (fun _ c p owned => ?_) le_rfl (.inl rfl)
    · rw [freeOwned_space, State.space_congr read.links.space, space]
    · rw [freeOwned_stream, State.stream_congr read.links.streams, idle]
    · exact (freeOwned_mapEntry_owned.mp owned).2 rfl
  · next shortfall =>
    have count := readForCount_upkeep s
    have still : ((readForCount s).stream h).assembling = none := by
      rcases count.records.assembling h with same | none
      · rw [same, idle]
      · exact none
    split
    · next d' j' reserved =>
      split
      · next room =>
        refine StoreKept.reply (count.kept.trans ?_) ..
        have same := count.records.reserved space reserved
        subst same
        refine begun_reserved_kept reserved still length written (fun ok c p owned => ?_) (by omega) (.inr ?_)
        · rw [← count.records.reserved_desc ok space reserved]
          exact ((ok.desc d').cells c p owned).2
        · rw [topUpRoom, Bool.and_eq_true, decide_eq_true_iff] at room
          exact room.1
      · exact count.kept.replyNoSpace ..
    · exact count.kept.trans (beginByAdmission_kept id still length written)
    · exact count.kept.trans (beginByAdmission_kept id still length written)

/-- BEGIN (R104 to R107). -/
theorem beginTaken_kept (h : HostId) (id : Nat) (dest length cls tag fenceLease fenceGen carried : Word) (s : State) :
    StoreKept s (beginTaken h id dest length cls tag fenceLease fenceGen carried s) := by
  unfold beginTaken
  split
  · exact (StoreKept.refl s).reply ..
  next idle =>
  rw [Option.isSome_iff_ne_none, not_ne_iff] at idle
  split
  · exact (StoreKept.refl s).reply ..
  · next m parsed =>
    obtain ⟨short, unwritten⟩ := parseBegin_spec parsed
    split
    · exact (StoreKept.refl s).reply ..
    cases space : s.space h with
    | empty => exact beginByAdmission_kept id idle short unwritten
    | waiting => exact beginByAdmission_kept id idle short unwritten
    | reserved d j => exact beginInReservation_kept id space idle short unwritten

end

end Sys2Proof.Machine
end

section
/-! PROOF. ABANDON, UNWIND, OPEN, REFUSE and the store's part of a departure keep the store sound (R101, R116 to R131). -/

namespace Sys2Proof.Machine

open Sys2Proof

section
variable {s t : State} {d : DescId} {h : HostId} {m : Message}

/-! ## A descriptor amended where it stands -/

/-- A descriptor rewritten with its state, source, cell count, destination and length kept. -/
theorem StoreKept.then_amend {r : State} (a : StoreKept r s) {x : Descriptor} (state : x.state = (s.desc d).state)
    (source : x.source = (s.desc d).source) (cellCount : x.cellCount = (s.desc d).cellCount)
    (same : x.msg.map (fun m => (m.dest, m.length)) = (s.desc d).msg.map (fun m => (m.dest, m.length)))
    (written : StoreOk s → ∀ m, x.msg = some m → m.written ≤ m.length ∧ (m.written % 2 = 0 ∨ m.written = m.length))
    (carry : StoreOk r → TransitOk r → ∀ l y, (s.entry l).transit = some y → y.desc = d → CarriesAs (s.desc d) x) :
    StoreKept r (s.putDesc d x) := by
  have here : (s.putDesc d x).desc d = x := State.putDesc_desc_same ..
  have dest : x.msg.map Message.dest = (s.desc d).msg.map Message.dest := by
    have := congrArg (Option.map Prod.fst) same
    simpa [Option.map_map, Function.comp_def] using this
  have length : x.msg.map Message.length = (s.desc d).msg.map Message.length := by
    have := congrArg (Option.map Prod.snd) same
    simpa [Option.map_map, Function.comp_def] using this
  have original : ∀ m', x.msg = some m' → ∃ m, (s.desc d).msg = some m ∧ m.length = m'.length := fun m' msg => by
    rw [msg] at length
    exact Option.map_eq_some_iff.mp length.symm
  refine a.then_at_desc d (putDesc_work ..).served rfl rfl (fun _ => id) (fun ok => ⟨ok.lists.nodup, ok.lists.waiting, ok.lists.queues⟩)
    (fun _ o ne => ⟨State.putDesc_desc_ne _ _ _ _ ne, fun _ => .rfl, fun _ => .rfl, fun _ => .rfl, fun _ _ => rfl,
      fun _ => .rfl, fun _ _ => id⟩) (fun ok => ?_) (fun ok carried l y e names => ?_)
    (fun _ => usage_of_used (d := d) (fun _ => rfl) (fun o ne => State.putDesc_desc_ne _ _ _ _ ne) fun g used => ?_)
  · have was := ok.desc d
    constructor
    · rw [here, state, source]
      exact was.reserved
    · rw [here, state, source]
      exact was.assembling
    · rw [here, state]
      intro assembling
      have some := was.msg assembling
      rw [← Option.isSome_map (f := Message.dest)] at some ⊢
      rwa [dest]
    · rw [here, state]
      exact was.opened
    · rw [here, state, dest]
      exact was.queued
    · rw [here, cellCount]
      intro m' msg
      obtain ⟨m, msg', same⟩ := original m' msg
      obtain ⟨short, cells, -⟩ := was.message m msg'
      rw [same] at short cells
      exact ⟨short, cells, written ok m' msg⟩
    · rw [here]
      intro g m' opened msg
      obtain ⟨m, msg', same⟩ := original m' msg
      rw [← same]
      exact was.readPos g m opened msg'
    · rw [here, state, cellCount]
      exact was.cells
    · exact was.unique
  · rw [here]
    exact carry ok carried l y e names
  · rwa [here, Descriptor.usedBy, state, source] at used

theorem markDamaged_kept (d : DescId) (s : State) : StoreKept s (markDamaged d s) :=
  (StoreKept.refl s).then_amend rfl rfl rfl rfl (fun ok m msg => ((ok.desc d).message m msg).2.2) fun _ _ _ _ _ _ => .refl _

/-- The carried-lease field cleared when no lease is carried. -/
theorem StoreKept.then_clearCarried (a : StoreKept s t) (msg : (t.desc d).msg = some m)
    (empty : StoreOk s → TransitOk s → ∀ l, (t.entry l).carriedIn d = false) : StoreKept s (clearCarried d m t) := by
  refine a.then_amend rfl rfl rfl (by rw [msg]; rfl) (fun ok m' msg' => ?_) fun ok carried l y e names => ?_
  · cases msg'
    exact ((ok.desc d).message m msg).2.2
  · have := empty ok carried l
    simp [LeaseEntry.carriedIn, e, names] at this

/-! ## Emptied descriptors -/

theorem failCarried_empty (carried : TransitOk s) (msg : (s.desc d).msg = some m) (l : LeaseId) :
    ((failCarried d m s).2.entry l).carriedIn d = false := by
  rcases before : (s.entry l).carriedIn d
  · exact (failCarried_transferWork d m s).not_carriedIn before
  · have names := carried.carried_of_carriedIn msg before
    rw [failCarried]
    simp only [names]
    exact transferFailed_not_carriedIn l d s

/-- A message freed after its carried transfer has failed. -/
theorem freeDesc_failed_kept (msg : (s.desc d).msg = some m) : StoreKept s (freeDesc d (failCarried d m s).2) :=
  (failCarried_transferWork d m s).storeKept.then_freeDesc fun _ carried => failCarried_empty carried msg

theorem bounce_kept (a : StoreKept s t) (x : Descriptor) (m : Message) (reason : BounceReason) (lease : Option LeaseId) :
    StoreKept s (bounce x m reason lease t) := by
  unfold bounce
  split
  · exact a.offerStore ..
  · exact a

/-! ## ABANDON (R116) and UNWIND (R117, R125) -/

theorem abandonTaken_kept (h : HostId) (id : Nat) (s : State) : StoreKept s (abandonTaken h id s) := by
  unfold abandonTaken
  cases assembling : (s.stream h).assembling with
  | none => exact (StoreKept.refl s).reply ..
  | some d =>
    have read := readMapFor_mapRead d s
    refine StoreKept.reply ((read.kept.trans (freeAssembling_kept (h := h) ?_)).trans (spaceScan_upkeep _).kept) ..
    rw [State.stream_congr read.links.streams, assembling]

theorem DescSound.state_of_mem {g : HostId} (sound : DescSound s d) (mem : d ∈ s.queue g) :
    ((s.desc d).state = .queued ∨ (s.desc d).state = .opened) ∧ (s.desc d).msg.map Message.dest = some g :=
  (sound.queued g).mp mem

/-- Only one host has the descriptor in its queue. -/
theorem DescSound.queue_unique {g g' : HostId} (sound : DescSound s d) (mem : d ∈ s.queue g) (mem' : d ∈ s.queue g') :
    g = g' := by
  have first := (sound.state_of_mem mem).2
  rw [(sound.state_of_mem mem').2] at first
  exact (Option.some.inj first).symm

theorem putBackOpen_kept (h : HostId) (s : State) : StoreKept s (putBackOpen h s) := by
  unfold putBackOpen
  cases opened : (s.stream h).openDesc with
  | none => exact .refl s
  | some d =>
    dsimp only
    have here : ∀ r, ((s.putDesc d { s.desc d with state := .queued }).setStream h r).desc d
        = { s.desc d with state := .queued } := fun _ => State.putDesc_desc_same ..
    have stream : ∀ r g, ((s.putDesc d { s.desc d with state := .queued }).setStream h r).stream g
        = if h = g then r else s.stream g := fun r g => State.setStream_stream _ _ _ _
    refine .at_desc d ((putDesc_work ..).trans (setStream_work ..)).served rfl rfl (fun _ => id) (fun ok => ⟨ok.lists.nodup, ok.lists.waiting, ok.lists.queues⟩)
      (fun _ o ne => ?_) (fun ok => ?_) (fun ok carried l y e names => ?_)
      (fun ok => usage_of_used (d := d) (fun _ => rfl) (fun o ne => State.putDesc_desc_ne _ _ _ _ ne) fun g used => ?_)
    · refine ⟨State.putDesc_desc_ne _ _ _ _ ne, fun _ => .rfl, fun g => ?_, fun g => ?_, fun g => ?_, fun _ => .rfl,
        fun _ _ => id⟩
      · rw [stream]
        split
        · next e => rw [e]
        · exact .rfl
      · rw [stream]
        split
        · next e =>
          rw [← e, opened]
          simp [ne]
        · exact .rfl
      · rw [stream]
        split
        · nofun
        · exact fun _ => rfl
    · have was := ok.desc d
      obtain ⟨state, mem⟩ := (was.opened h).mp opened
      have not_assembling : ∀ g, (s.stream g).assembling ≠ some d := fun g e => by
        rw [((was.assembling g).mp e).1] at state
        cases state
      have not_reserved : ∀ g, ¬ ∃ k, s.space g = .reserved d k := fun g e => by
        rw [((was.reserved g).mp e).1] at state
        cases state
      constructor
      · intro g
        rw [here]
        exact ⟨fun e => absurd e (not_reserved g), fun e => nomatch e.1⟩
      · intro g
        rw [here, stream]
        refine ⟨fun e => ?_, fun e => nomatch e.1⟩
        split at e
        · exact absurd e (not_assembling h)
        · exact absurd e (not_assembling g)
      · rw [here]
        nofun
      · intro g
        rw [here, stream]
        refine ⟨fun e => ?_, fun e => nomatch e.1⟩
        split at e
        · cases e
        · next ne => exact absurd (was.queue_unique mem ((was.opened g).mp e).2) ne
      · intro g
        rw [here]
        show d ∈ s.queue g ↔ _
        rw [was.queued g, state]
        simp
      · rw [here]
        exact was.message
      · intro g m'
        rw [here, stream]
        split
        · nofun
        · exact was.readPos g m'
      · intro c p owned
        rw [here]
        exact ⟨nofun, (was.cells c p owned).2⟩
      · exact was.unique
    · rw [here]
      exact fun _ => ⟨.inl rfl, rfl⟩
    · rw [here] at used
      have state := ((ok.desc d).opened h |>.mp opened).1
      simp only [Descriptor.usedBy, Bool.and_eq_true, decide_eq_true_eq] at used ⊢
      exact ⟨by rw [state]; nofun, used.2⟩

theorem readOptDesc_upkeep (o : Option DescId) (s : State) : Upkeep s (readOptDesc o s).2 := by
  cases o with
  | none => exact .refl s
  | some d => exact readDescCore_upkeep d s

theorem unwindTaken_kept (h : HostId) (id : Nat) (s : State) : StoreKept s (unwindTaken h id s) := by
  have read := (readOptDesc_upkeep (s.stream h).assembling s).trans
    (readOptDesc_upkeep (s.stream h).openDesc (readOptDesc (s.stream h).assembling s).2)
  unfold unwindTaken
  dsimp only
  split
  · exact (read.kept.trans (spaceScan_upkeep _).kept).reply ..
  cases assembling : ((readOptDesc (s.stream h).openDesc (readOptDesc (s.stream h).assembling s).2).2.stream h).assembling with
  | none => exact (read.kept.trans (putBackOpen_kept h _)).reply ..
  | some d =>
    have map := readMapFor_mapRead d (readOptDesc (s.stream h).openDesc (readOptDesc (s.stream h).assembling s).2).2
    refine StoreKept.reply ((read.kept.trans (map.kept.trans ((freeAssembling_kept (h := h) ?_).trans
      (putBackOpen_kept h _)))).trans (spaceScan_upkeep _).kept) ..
    rw [State.stream_congr map.links.streams, assembling]

end

end Sys2Proof.Machine
end

section
/-! PROOF. OPEN, ACCEPT, REFUSE, COMMIT and the store's part of a departure keep the store sound (R101, R113 to R131). -/

namespace Sys2Proof.Machine

open Sys2Proof

section
variable {s t : State} {d : DescId} {h : HostId} {m : Message}

/-! ## OPEN (R119, R163) -/

/-- The message open at its host, with the carried lease that is left of it. -/
def openedAt (h : HostId) (d : DescId) (m : Message) (carried : Option LeaseId) (s : State) : State :=
  (s.putDesc d { s.desc d with state := .opened, msg := some { m with carried := carried } }).setStream h
    { s.stream h with openDesc := some d, readPos := 0 }

section
variable (h d m) (carried : Option LeaseId) (s : State)

theorem openedAt_desc (o : DescId) : (openedAt h d m carried s).desc o =
    if d = o then { s.desc d with state := .opened, msg := some { m with carried := carried } } else s.desc o :=
  State.putDesc_desc ..

theorem openedAt_stream (g : HostId) : (openedAt h d m carried s).stream g =
    if h = g then { s.stream h with openDesc := some d, readPos := 0 } else s.stream g := State.setStream_stream ..

end

/-- What stands in a queue without being open at its host is QUEUED. -/
theorem StoreOk.queued_of_mem (ok : StoreOk s) (mem : d ∈ s.queue h) (closed : (s.stream h).openDesc = none) :
    (s.desc d).state = .queued := by
  rcases ((ok.desc d).state_of_mem mem).1 with queued | opened
  · exact queued
  · have := ((ok.desc d).opened h).mpr ⟨opened, mem⟩
    rw [closed] at this
    cases this

theorem openedAt_sound {carried : Option LeaseId} (msg : (s.desc d).msg = some m) (mem : d ∈ s.queue h)
    (closed : (s.stream h).openDesc = none) (ok : StoreOk s) : DescSound (openedAt h d m carried s) d := by
  have was := ok.desc d
  have state := ok.queued_of_mem mem closed
  have here : (openedAt h d m carried s).desc d
      = { s.desc d with state := .opened, msg := some { m with carried := carried } } := by rw [openedAt_desc, if_pos rfl]
  have bounds := was.message m msg
  constructor
  · intro g
    rw [here]
    refine ⟨fun e => ?_, fun e => nomatch e.1⟩
    have := ((was.reserved g).mp e).1
    rw [state] at this
    cases this
  · intro g
    rw [here, openedAt_stream]
    refine ⟨fun e => ?_, fun e => nomatch e.1⟩
    have : (s.stream g).assembling = some d := by
      split at e
      · next same => rwa [same] at e
      · exact e
    have := ((was.assembling g).mp this).1
    rw [state] at this
    cases this
  · rw [here]
    nofun
  · intro g
    rw [here, openedAt_stream]
    show _ ↔ _ ∧ d ∈ s.queue g
    rcases eq_or_ne h g with rfl | ne
    · simp [mem]
    · rw [if_neg ne]
      refine ⟨fun e => ?_, fun e => absurd (was.queue_unique mem e.2) ne⟩
      exact absurd (was.queue_unique mem ((was.opened g).mp e).2) ne
  · intro g
    rw [here]
    show d ∈ s.queue g ↔ _
    rw [was.queued g, state, msg]
    simp
  · intro m' msg'
    rw [here] at msg' ⊢
    cases msg'
    exact bounds
  · intro g m' opened msg'
    rw [here] at msg'
    cases msg'
    rw [openedAt_stream] at opened ⊢
    split
    · simp
    · next ne =>
      rw [if_neg ne] at opened
      have := ((was.opened g).mp opened).1
      rw [state] at this
      cases this
  · intro c p owned
    rw [here]
    exact ⟨nofun, (was.cells c p owned).2⟩
  · exact was.unique

theorem openedAt_kept {carried : Option LeaseId} (msg : (s.desc d).msg = some m) (mem : d ∈ s.queue h)
    (closed : (s.stream h).openDesc = none)
    (carry : ∀ l, m.carried = some l → (s.entry l).carriedIn d = true → carried = some l) :
    StoreKept s (openedAt h d m carried s) := by
  refine .at_desc d ((putDesc_work ..).trans (setStream_work ..)).served rfl rfl (fun _ => id) (fun ok => ⟨ok.lists.nodup, ok.lists.waiting, ok.lists.queues⟩)
    (fun _ o ne => ?_) (openedAt_sound msg mem closed) (fun ok sound l y e names => ?_)
    (fun ok => usage_of_used (d := d) (fun _ => rfl) (fun o ne => State.putDesc_desc_ne _ _ _ _ ne) fun g used => ?_)
  · refine ⟨State.putDesc_desc_ne _ _ _ _ ne, fun _ => .rfl, fun g => ?_, fun g => ?_, fun g => ?_, fun _ => .rfl,
      fun _ _ => id⟩
    · rw [openedAt_stream]
      split
      · next e => rw [e]
      · exact .rfl
    · rw [openedAt_stream]
      split
      · next e =>
        rw [← e, closed]
        simp [ne]
      · exact .rfl
    · rw [openedAt_stream]
      split
      · exact fun e => absurd (Option.some.inj e) ne
      · exact fun _ => rfl
  · rw [openedAt_desc, if_pos rfl]
    refine fun _ => ⟨.inr rfl, ?_⟩
    have here : (s.entry l).carriedIn d = true := by simp [LeaseEntry.carriedIn, e, names]
    have own := sound.carried_of_carriedIn msg here
    simp [msg, own, carry l own here]
  · rw [openedAt_desc, if_pos rfl] at used
    have state := ok.queued_of_mem mem closed
    simp only [Descriptor.usedBy, Bool.and_eq_true, decide_eq_true_eq] at used ⊢
    exact ⟨by rw [state]; nofun, used.2⟩

theorem openQuestion_carried (d : DescId) (m : Message) (s : State) (l : LeaseId) (names : m.carried = some l)
    (carried : ((openQuestion d m s).2.entry l).carriedIn d = true) : (openQuestion d m s).1.carried = some l := by
  unfold openQuestion at carried ⊢
  dsimp only at carried ⊢
  simp only [names] at carried ⊢
  rw [if_pos carried]

theorem discardEmpty_kept (msg : (s.desc d).msg = some m) : StoreKept s (discardEmpty d m s) :=
  (bounce_kept (freeDesc_failed_kept msg) ..).trans (spaceScan_upkeep _).kept

theorem markDamaged_desc_msg (d : DescId) (s : State) : ((markDamaged d s).desc d).msg = (s.desc d).msg := by
  rw [markDamaged, State.putDesc_desc_same]

/-- The positions of a head looked up: a head that has lost one is marked damaged (R163). -/
def headLooked (d : DescId) (s : State) : State :=
  if (List.range ((readMapFor d s).desc d).cellCount).any fun p => (lookupCell d p (readMapFor d s)).isNone then
    markDamaged d (readMapFor d s)
  else readMapFor d s

/-- OPEN of a head whose positions were looked up (R163, R120, R119). -/
def openLooked (h : HostId) (id : Nat) (d : DescId) (m : Message) (positions : List Nat) (s : State) : State :=
  if 0 < m.length ∧ ∀ p ∈ positions, lookupCell d p s = none then (discardEmpty d m s).reply h id .damaged []
  else if (openQuestion d m s).1.damaged then (openQuestion d m s).2.reply h id .damaged []
  else (openedAt h d m (openQuestion d m s).1.carried (openQuestion d m s).2).reply h id .ok
    (openWords d ((openQuestion d m s).2.desc d) m (openQuestion d m s).1)

theorem openHead_eq (id : Nat) : openHead h id d m s =
    openLooked h id d m (List.range ((readMapFor d s).desc d).cellCount) (headLooked d s) := rfl

theorem headLooked_cases (d : DescId) (s : State) :
    headLooked d s = readMapFor d s ∨ headLooked d s = markDamaged d (readMapFor d s) := by
  unfold headLooked
  split
  · exact .inr rfl
  · exact .inl rfl

theorem headLooked_kept (d : DescId) (s : State) : StoreKept s (headLooked d s) := by
  have read := readMapFor_mapRead d s
  rcases headLooked_cases d s with e | e <;> rw [e]
  · exact read.kept
  · exact read.kept.trans (markDamaged_kept d _)

theorem headLooked_msg (d : DescId) (s : State) : ((headLooked d s).desc d).msg = (s.desc d).msg := by
  have read := readMapFor_mapRead d s
  rcases headLooked_cases d s with e | e <;> rw [e]
  · rw [read.links.descs]
  · rw [markDamaged_desc_msg, read.links.descs]

theorem markDamaged_queue (d : DescId) (s : State) (h : HostId) : (markDamaged d s).queue h = s.queue h := rfl

theorem markDamaged_stream (d : DescId) (s : State) (h : HostId) : (markDamaged d s).stream h = s.stream h := rfl

theorem headLooked_queue (d : DescId) (s : State) (h : HostId) : (headLooked d s).queue h = s.queue h := by
  have read := readMapFor_mapRead d s
  rcases headLooked_cases d s with e | e <;> rw [e]
  · rw [State.queue_congr read.links.inbound]
  · rw [markDamaged_queue, State.queue_congr read.links.inbound]

theorem headLooked_stream (d : DescId) (s : State) (h : HostId) : (headLooked d s).stream h = s.stream h := by
  have read := readMapFor_mapRead d s
  rcases headLooked_cases d s with e | e <;> rw [e]
  · rw [State.stream_congr read.links.streams]
  · rw [markDamaged_stream, State.stream_congr read.links.streams]

theorem openLooked_kept (id : Nat) (positions : List Nat) (msg : (s.desc d).msg = some m) (mem : d ∈ s.queue h)
    (closed : (s.stream h).openDesc = none) : StoreKept s (openLooked h id d m positions s) := by
  have work := openQuestion_transferWork d m s
  unfold openLooked
  split
  · exact (discardEmpty_kept msg).reply ..
  split
  · exact work.storeKept.reply ..
  · refine (work.storeKept.trans (openedAt_kept ?_ ?_ ?_ (openQuestion_carried d m s))).reply ..
    · rw [State.desc, work.store]
      exact msg
    · rw [State.queue, work.store]
      exact mem
    · rw [State.stream, work.store]
      exact closed

theorem openHead_kept (id : Nat) (msg : (s.desc d).msg = some m) (mem : d ∈ s.queue h)
    (closed : (s.stream h).openDesc = none) : StoreKept s (openHead h id d m s) := by
  rw [openHead_eq]
  refine (headLooked_kept d s).trans (openLooked_kept id _ ?_ ?_ ?_)
  · rw [headLooked_msg, msg]
  · rwa [headLooked_queue]
  · rw [headLooked_stream, closed]

theorem openTaken_kept (h : HostId) (id : Nat) (s : State) : StoreKept s (openTaken h id s) := by
  unfold openTaken
  split
  · exact (StoreKept.refl s).reply ..
  next closed =>
  rw [Option.isSome_iff_ne_none, not_ne_iff] at closed
  split
  · exact (StoreKept.refl s).reply ..
  · next d rest queue =>
    have upkeep := readDesc_upkeep d s
    rcases read : readDesc d s with ⟨_ | _, t⟩
    · have same := readDesc_false read
      dsimp only
      split
      · exact same.kept.reply ..
      · next m msg =>
        refine same.kept.trans (openHead_kept id msg ?_ ?_)
        · rw [State.queue_congr same.links.inbound, queue]
          exact List.mem_cons_self
        · rw [State.stream_congr same.links.streams, closed]
    · rw [read] at upkeep
      exact upkeep.kept.reply ..

/-! ## Commands on an open message (R123, R124) -/

theorem onOpenMessage_kept (id : Nat) {work : DescId → Message → State → State}
    (each : ∀ {d m t}, (t.desc d).msg = some m → (t.stream h).openDesc = some d → StoreKept t (work d m t)) :
    StoreKept s (onOpenMessage h id work s) := by
  unfold onOpenMessage
  split
  · exact (StoreKept.refl s).reply ..
  · next d opened =>
    have upkeep := readDesc_upkeep d s
    rcases read : readDesc d s with ⟨_ | _, t⟩
    · have same := readDesc_false read
      dsimp only
      split
      · exact same.kept.reply ..
      · next m msg => exact same.kept.trans (each msg (by rw [State.stream_congr same.links.streams, opened]))
    · rw [read] at upkeep
      exact upkeep.kept.reply ..

/-- When the carried entry was rebuilt, nothing is carried in the descriptor. -/
theorem empty_of_damaged {t : State} {l : LeaseId} (work : TransferWork s t) (msg : (s.desc d).msg = some m)
    (names : m.carried = some l) (gone : (t.entry l).carriedIn d = false) (sound : TransitOk s) (l' : LeaseId) :
    (t.entry l').carriedIn d = false := by
  rcases before : (s.entry l').carriedIn d
  · exact work.not_carriedIn before
  · have := sound.carried_of_carriedIn msg before
    rw [names] at this
    cases this
    exact gone

theorem failCarried_damaged (damaged : (failCarried d m s).1 = .damaged) :
    ∃ l, m.carried = some l ∧ ((failCarried d m s).2.entry l).carriedIn d = false := by
  unfold failCarried at damaged ⊢
  cases names : m.carried with
  | none =>
    rw [names] at damaged
    cases damaged
  | some l => exact ⟨l, rfl, transferFailed_not_carriedIn l d s⟩

/-- REFUSE (R124). -/
theorem refuseMessage_kept (id : Nat) (msg : (s.desc d).msg = some m) : StoreKept s (refuseMessage h id d m s) := by
  have work := failCarried_transferWork d m s
  unfold refuseMessage
  dsimp only
  split
  · next damaged =>
    obtain ⟨l, names, gone⟩ := failCarried_damaged damaged
    refine (work.storeKept.then_clearCarried ?_ fun _ sound => empty_of_damaged work msg names gone sound).reply ..
    rw [State.desc, work.store]
    exact msg
  · exact ((bounce_kept (freeDesc_failed_kept msg) ..).trans (spaceScan_upkeep _).kept).reply ..

/-- ACCEPT's freeing of a message that carries nothing (R123). -/
theorem finishAccept_kept (id : Nat) (lease : Option LeaseId) (g : Word) (v : BitVec 32) (b : Bool)
    (empty : StoreOk s → TransitOk s → ∀ l, (s.entry l).carriedIn d = false) :
    StoreKept s (finishAccept h id d lease g v b s) := by
  unfold finishAccept
  exact (((StoreKept.refl s).then_freeDesc empty).trans (spaceScan_upkeep _).kept).reply ..

/-! ## The store's part of a departure (R101, R127) -/

theorem freeQuietly_kept (queued : StoreOk s → (s.desc d).state ≠ .queued) (opened : StoreOk s → (s.desc d).state ≠ .opened) :
    StoreKept s (freeQuietly d s) := by
  have upkeep := readDescCore_upkeep d s
  unfold freeQuietly
  rcases read : readDescCore d s with ⟨_ | _, t⟩
  · have same := readDescCore_false read
    dsimp only
    refine same.kept.then_freeDesc fun ok carried l => ?_
    refine (same.kept.transit ok carried).not_carriedIn ?_ ?_ l
    · rw [same.links.descs]
      exact queued ok
    · rw [same.links.descs]
      exact opened ok
  · rw [read] at upkeep
    exact upkeep.kept

theorem freeQuietly_records (d : DescId) (s : State) : RecordsKept s (freeQuietly d s) := by
  have upkeep := readDescCore_upkeep d s
  unfold freeQuietly
  rcases read : readDescCore d s with ⟨_ | _, t⟩
  · exact (readDescCore_false read).upkeep.records.trans (freeDesc_records d t)
  · rw [read] at upkeep
    exact upkeep.records

theorem loseDescCore_store (d : DescId) (s : State) : (loseDescCore d s).store = (clearDesc d (readMap s)).store := by
  rw [loseDescCore, transfersLost_store, State.storeFinding_eq, withFault_store]

/-- After the quiet freeing of a descriptor the store's objects are those of a cleared descriptor. -/
theorem freeQuietly_store (d : DescId) (s : State) : ∃ t, MapRead s t ∧ (freeQuietly d s).store = (clearDesc d t).store := by
  unfold freeQuietly
  rcases read : readDescCore d s with ⟨_ | _, t⟩
  · have same := readDescCore_false read
    exact ⟨_, same.trans (readMapFor_mapRead d t), rfl⟩
  · dsimp only
    rw [readDescCore_true read]
    exact ⟨_, readMap_mapRead s, loseDescCore_store d s⟩

end

end Sys2Proof.Machine
end

section
/-! PROOF. The store's part of a departure: each of its parts keeps the store sound, and after all of them nothing at the
store names the host (R101, R127). -/

namespace Sys2Proof.Machine

open Sys2Proof

section
variable {s t u : State} {d : DescId} {h : HostId} {m : Message}

/-! ## The parts -/

theorem freeQuietly_space (d : DescId) (s : State) (g : HostId) : (freeQuietly d s).space g = (s.space g).drop d := by
  obtain ⟨t, read, store⟩ := freeQuietly_store d s
  rw [State.space, store]
  show (clearDesc d t).space g = _
  rw [clearDesc_space, State.space_congr read.links.space]

theorem freeQuietly_stream (d : DescId) (s : State) (g : HostId) : (freeQuietly d s).stream g = (s.stream g).drop d := by
  obtain ⟨t, read, store⟩ := freeQuietly_store d s
  rw [State.stream, store]
  show (clearDesc d t).stream g = _
  rw [clearDesc_stream, State.stream_congr read.links.streams]

theorem SpaceRecord.drop_self (d : DescId) (k : Nat) : (SpaceRecord.reserved d k).drop d = .empty := if_pos rfl

theorem departSpace_reserved {k : Nat} (space : s.space h = .reserved d k) : departSpace h s = freeQuietly d s := by
  unfold departSpace
  simp only [space]
  exact setSpace_self (by rw [freeQuietly_space, space, SpaceRecord.drop_self])

theorem departSpace_upkeep (h : HostId) (s : State) : Upkeep s (departSpace h s) := by
  cases space : s.space h with
  | empty =>
    simp only [departSpace, space]
    exact .refl s
  | waiting n k =>
    simp only [departSpace, space]
    exact ⟨spaceLeft_kept ⟨n, k, space⟩, spaceLeft_records h s⟩
  | reserved d k =>
    rw [departSpace_reserved space]
    have state : StoreOk s → (s.desc d).state = .reserved := fun ok => (ok.reserved_of_space space).1
    exact ⟨freeQuietly_kept (fun ok => by rw [state ok]; nofun) fun ok => by rw [state ok]; nofun, freeQuietly_records d s⟩

theorem departSpace_space (h : HostId) (s : State) : (departSpace h s).space h = .empty := by
  cases space : s.space h with
  | empty => simp only [departSpace, space]
  | waiting n k =>
    simp only [departSpace, space]
    exact State.setSpace_space_same ..
  | reserved d k => rw [departSpace_reserved space, freeQuietly_space, space, SpaceRecord.drop_self]

/-- Part 2: the assembling message freed without a bounce. -/
def departAssembling (h : HostId) (s : State) : State :=
  match (s.stream h).assembling with
  | none => s
  | some d => freeQuietly d s

theorem departAssembling_upkeep (h : HostId) (s : State) : Upkeep s (departAssembling h s) := by
  unfold departAssembling
  cases assembling : (s.stream h).assembling with
  | none => exact .refl s
  | some d =>
    have state : StoreOk s → (s.desc d).state = .assembling := fun ok => (((ok.desc d).assembling h).mp assembling).1
    exact ⟨freeQuietly_kept (fun ok => by rw [state ok]; nofun) fun ok => by rw [state ok]; nofun, freeQuietly_records d s⟩

theorem departAssembling_stream (h : HostId) (s : State) : ((departAssembling h s).stream h).assembling = none := by
  unfold departAssembling
  cases assembling : (s.stream h).assembling with
  | none => exact assembling
  | some d =>
    dsimp only
    rw [freeQuietly_stream]
    simp [StreamRecord.drop, assembling]

theorem TransferWork.upkeep (w : TransferWork s t) : Upkeep s t := ⟨w.storeKept, .of_store w.store⟩

theorem bounce_store (x : Descriptor) (m : Message) (reason : BounceReason) (lease : Option LeaseId) (s : State) :
    (bounce x m reason lease s).store = s.store := by
  unfold bounce
  split <;> rfl

/-- A message whose carried transfer has failed, freed and bounced. -/
theorem discarded_upkeep (x : Descriptor) (reason : BounceReason) (lease : Option LeaseId) (msg : (s.desc d).msg = some m) :
    Upkeep s (bounce x m reason lease (freeDesc d (failCarried d m s).2)) :=
  ⟨bounce_kept (freeDesc_failed_kept msg) .., ((failCarried_transferWork d m s).upkeep.records.trans
    (freeDesc_records d _)).trans (.of_store (bounce_store ..))⟩

theorem discardOne_upkeep (s : State) (d : DescId) : Upkeep s (discardOne s d) := by
  have upkeep := readDescCore_upkeep d s
  unfold discardOne
  rcases read : readDescCore d s with ⟨_ | _, t⟩
  · have same := readDescCore_false read
    dsimp only
    split
    · next none =>
      refine same.upkeep.trans ⟨(StoreKept.refl t).then_freeDesc fun _ carried l => ?_, freeDesc_records d t⟩
      rw [Bool.eq_false_iff]
      intro named
      obtain ⟨x, transit, rfl⟩ := Option.map_eq_some_iff.mp ((LeaseEntry.carriedIn_iff ..).mp named)
      have := (carried l x transit).2
      rw [none] at this
      cases this
    · next m msg => exact same.upkeep.trans (discarded_upkeep _ _ _ msg)
  · rw [read] at upkeep
    exact upkeep

theorem freeDesc_queue (d : DescId) (s : State) (g : HostId) :
    (freeDesc d s).queue g = (s.queue g).filter fun x => x ≠ d := by
  rw [freeDesc, clearDesc_queue, State.queue_congr (readMapFor_mapRead d s).links.inbound]

theorem not_mem_filter_ne (xs : List DescId) (d : DescId) : d ∉ xs.filter fun x => x ≠ d := by simp

theorem discardOne_not_mem (s : State) (d : DescId) (g : HostId) : d ∉ (discardOne s d).queue g := by
  unfold discardOne
  rcases read : readDescCore d s with ⟨_ | _, t⟩
  · dsimp only
    split
    · rw [freeDesc_queue]
      exact not_mem_filter_ne _ _
    · rw [State.queue, bounce_store]
      show d ∉ (freeDesc d _).queue g
      rw [freeDesc_queue]
      exact not_mem_filter_ne _ _
  · dsimp only
    rw [readDescCore_true read, State.queue, loseDescCore_store]
    show d ∉ (clearDesc d _).queue g
    rw [clearDesc_queue]
    exact not_mem_filter_ne _ _

theorem foldl_discardOne_not_mem (ds : List DescId) (g : HostId) : ∀ s : State, ∀ d ∈ ds, d ∉ (ds.foldl discardOne s).queue g := by
  induction ds with
  | nil => exact fun _ _ mem => absurd mem List.not_mem_nil
  | cons x xs ih =>
    intro s d mem
    rcases List.mem_cons.mp mem with rfl | mem
    · exact fun here => discardOne_not_mem s d g ((Upkeep.foldl discardOne_upkeep xs _).records.queue g d here)
    · exact ih _ d mem

theorem foldl_discardOne_queue (g : HostId) (s : State) : ((s.queue g).foldl discardOne s).queue g = [] :=
  List.eq_nil_iff_forall_not_mem.mpr fun d mem =>
    foldl_discardOne_not_mem (s.queue g) g s d ((Upkeep.foldl discardOne_upkeep (s.queue g) s).records.queue g d mem) mem

/-! ## The whole of it -/

/-- The store with the host counted out. -/
def State.countedOut (s : State) (h : HostId) : State :=
  { s with store := { s.store with joined := upd s.store.joined h none } }

/-- The parts of a departure at the store, before its space scan and but for the stream record (R101). -/
def departParts (h : HostId) (s : State) : State :=
  ((departAssembling h (departSpace h s)).queue h).foldl discardOne (departAssembling h (departSpace h s))

theorem departStore_eq (h : HostId) (s : State) : departStore h s =
    (spaceScan ((departParts h (s.countedOut h)).setStream h
      { (departParts h (s.countedOut h)).stream h with assembling := none, openDesc := none })).1 := rfl

theorem departParts_upkeep (h : HostId) (s : State) : Upkeep s (departParts h s) :=
  ((departSpace_upkeep h s).trans (departAssembling_upkeep h _)).trans (.foldl discardOne_upkeep _ _)

/-- After the parts of a departure nothing at the store names the host. -/
theorem departParts_clean (ok : StoreOk s) : (departParts h s).space h = .empty
    ∧ ((departParts h s).stream h).assembling = none ∧ ((departParts h s).stream h).openDesc = none
    ∧ (departParts h s).queue h = [] := by
  have discards := Upkeep.foldl discardOne_upkeep ((departAssembling h (departSpace h s)).queue h)
    (departAssembling h (departSpace h s))
  have empty : (departParts h s).queue h = [] := foldl_discardOne_queue h _
  refine ⟨?_, ?_, ?_, empty⟩
  · have rest := (departAssembling_upkeep h (departSpace h s)).records.trans discards.records
    rcases rest.space h with same | none | ⟨⟨n, k, waiting⟩, -⟩
    · exact same.trans (departSpace_space h s)
    · exact none
    · rw [departSpace_space] at waiting
      cases waiting
  · rcases discards.records.assembling h with same | none
    · exact same.trans (departAssembling_stream h _)
    · exact none
  · have sound := (departParts_upkeep h s).kept.store_ok ok
    cases opened : ((departParts h s).stream h).openDesc with
    | none => rfl
    | some d =>
      have mem := (((sound.desc d).opened h).mp opened).2
      rw [empty] at mem
      cases mem

theorem StoreKept.then_setStream (a : StoreKept s t) {r : StreamRecord} (same : StoreOk s → t.stream h = r) :
    StoreKept s (t.setStream h r) where
  served := a.served.trans (setStream_work ..).served
  entries := a.entries
  dir_ok ok := (a.dir_ok ok).of_dir rfl
  payload := a.payload
  retired := a.retired
  store_ok ok := by
    rw [setStream_self (same ok)]
    exact a.store_ok ok
  transit ok := by
    rw [setStream_self (same ok)]
    exact a.transit ok
  usage ok := by
    rw [setStream_self (same ok)]
    exact a.usage ok

theorem departParts_closed_kept (h : HostId) (s : State) : StoreKept s ((departParts h s).setStream h
    { (departParts h s).stream h with assembling := none, openDesc := none }) := by
  refine (departParts_upkeep h s).kept.then_setStream fun ok => ?_
  obtain ⟨-, assembling, opened, -⟩ := departParts_clean (h := h) ok
  generalize (departParts h s).stream h = r at assembling opened ⊢
  obtain ⟨a, o, p⟩ := r
  exact congrArg₂ (fun a o => StreamRecord.mk a o p) assembling opened

/-- Counting a host out changes no object of the store. -/
theorem countedOut_objects (h : HostId) (s : State) : SameObjects s (s.countedOut h) := ⟨rfl, rfl, rfl, rfl, rfl⟩

theorem departStore_kept (h : HostId) (s : State) : StoreKept (s.countedOut h) (departStore h s) := by
  rw [departStore_eq]
  exact (departParts_closed_kept h (s.countedOut h)).trans (spaceScan_upkeep _).kept

/-- The store after a departure names the host nowhere. -/
theorem departStore_clean (ok : StoreOk s) : StoreOk (departStore h s) ∧ (departStore h s).space h = .empty
    ∧ ((departStore h s).stream h).assembling = none ∧ ((departStore h s).stream h).openDesc = none
    ∧ (departStore h s).queue h = [] := by
  have sound := (countedOut_objects h s).store_ok ok
  obtain ⟨space, assembling, opened, queue⟩ := departParts_clean (h := h) sound
  refine ⟨(departStore_kept h s).store_ok sound, ?_⟩
  rw [departStore_eq]
  generalize departParts h (s.countedOut h) = u at space assembling opened queue ⊢
  have scan := (spaceScan_upkeep (u.setStream h { u.stream h with assembling := none, openDesc := none })).records
  refine ⟨?_, ?_, ?_, ?_⟩
  · rcases scan.space h with same | empty | ⟨⟨n, k, waiting⟩, -⟩
    · exact same.trans space
    · exact empty
    · exact absurd (space.symm.trans waiting) nofun
  · rcases scan.assembling h with same | none
    · rw [same, State.setStream_stream_same]
    · exact none
  · rcases scan.openDesc h with same | none
    · rw [same, State.setStream_stream_same]
    · exact none
  · refine List.eq_nil_iff_forall_not_mem.mpr fun d mem => ?_
    have := scan.queue h d mem
    exact absurd (queue ▸ this : d ∈ ([] : List DescId)) List.not_mem_nil

end

end Sys2Proof.Machine
end

section
/-! PROOF. What every row but device reset keeps of the directory and the store: stated once, with the rules by which a
row comes to it (O52, O53, O56, O59). -/

namespace Sys2Proof.Machine

open Sys2Proof

/-! ## What a row keeps -/

/-- The row writes the value of this lease for its acting owner (R39). -/
def Writes (i : Instr) (s : State) (l : LeaseId) : Prop :=
  ∃ h lease hi lo, i = .writeValue h lease hi lo ∧ lease.toNat = l.val ∧ (s.entry l).acts h = true

/-- What a row may make of the entry of a lease that is not rebuilt (R22, R23, R39). -/
structure LawfulEntry (i : Instr) (s t : State) (l : LeaseId) : Prop where
  generation : (t.entry l).generation = (s.entry l).generation
    ∨ ((t.entry l).generation = (s.entry l).generation + 1#16 ∧ (t.entry l).state = .exclusive)
  exclusive : (t.entry l).state = .exclusive → (s.entry l).state ≠ .exclusive ∨ (s.entry l).owner ≠ (t.entry l).owner →
    (t.entry l).generation = (s.entry l).generation + 1#16
  value : (t.entry l).value = (s.entry l).value ∨ Writes i s l

/-- What a row keeps of the directory's and the store's objects. -/
structure RowKept (i : Instr) (s t : State) : Prop where
  dir_ok : DirectoryOk s → DirectoryOk t
  payload : PayloadOk s → PayloadOk t
  store_ok : StoreOk s → StoreOk t
  transit : StoreOk s → TransitOk s → TransitOk t
  retired : ∀ c, s.mapEntry c = .retired → t.mapEntry c = .retired
  usage : StoreOk s → ∀ h, descUsage h t ≤ max (descUsage h s) t.store.descQuota
    ∧ cellUsage h t ≤ max (cellUsage h s) t.store.cellQuota
  entries : ∀ l, t.entry l = LeaseEntry.rebuilt ∨ LawfulEntry i s t l

section
variable {i : Instr} {s t u : State} {l : LeaseId}

theorem LawfulEntry.of_same (same : t.entry l = s.entry l) : LawfulEntry i s t l := by
  refine ⟨.inl (by rw [same]), fun _ other => ?_, .inl (by rw [same])⟩
  rw [same] at other
  rcases other with other | other
  · exact absurd ‹(t.entry l).state = .exclusive› (same ▸ other)
  · exact absurd rfl other

theorem LawfulEntry.of_law (law : (s.entry l).Law (t.entry l)) : LawfulEntry i s t l :=
  ⟨law.generation, law.exclusive, .inl law.value⟩

theorem LeaseEntry.failed_keeps (e : LeaseEntry) : e.Keeps e.failed := by
  unfold LeaseEntry.failed
  split
  · exact ⟨rfl, rfl, fun s => ⟨s, rfl⟩, nofun⟩
  · exact ⟨rfl, rfl, nofun, nofun⟩

theorem LeaseEntry.MayFail.keeps {e e' : LeaseEntry} (a : e.MayFail e') : e' = LeaseEntry.rebuilt ∨ e.Keeps e' := by
  rcases a with same | rebuilt | ⟨-, failed⟩
  · rw [same]
    exact .inr (.refl e)
  · exact .inl rebuilt
  · rw [failed]
    exact .inr e.failed_keeps

theorem StoreKept.row (a : StoreKept s t) : RowKept i s t where
  dir_ok := a.dir_ok
  payload := a.payload
  store_ok := a.store_ok
  transit := a.transit
  retired := a.retired
  usage ok h := by
    have := a.usage ok h
    rwa [← a.served.descQuota, ← a.served.cellQuota] at this
  entries l := (a.entries l).keeps.imp id fun keeps => .of_law keeps.law

/-- A row after work that leaves the objects alone. -/
theorem RowKept.after (a : SameObjects s t) (b : RowKept i t u) : RowKept i s u where
  dir_ok ok := b.dir_ok (a.dir_ok ok)
  payload ok := b.payload (a.payload ok)
  store_ok ok := b.store_ok (a.store_ok ok)
  transit ok carried := b.transit (a.store_ok ok) (a.transit carried)
  retired c e := b.retired c (a.mapEntry c ▸ e)
  usage ok h := by
    have := b.usage (a.store_ok ok) h
    rwa [(a.usage h).1, (a.usage h).2] at this
  entries l := (b.entries l).imp id fun law => by
    have writes : Writes i t l → Writes i s l := fun ⟨h, lease, hi, lo, eq, names, acts⟩ =>
      ⟨h, lease, hi, lo, eq, names, a.entry l ▸ acts⟩
    exact ⟨a.entry l ▸ law.generation, a.entry l ▸ law.exclusive, (a.entry l ▸ law.value).imp id writes⟩

theorem SameObjects.row (a : SameObjects s t) : RowKept i s t where
  dir_ok := a.dir_ok
  payload := a.payload
  store_ok := a.store_ok
  transit _ := a.transit
  retired c e := (a.mapEntry c).trans e
  usage _ h := by
    rw [(a.usage h).1, (a.usage h).2]
    exact ⟨le_max_left .., le_max_left ..⟩
  entries l := .inr (.of_same (a.entry l))

/-- One step of the directory at one lease, by its law or as WRITE_VALUE or COMMIT make the entry. -/
theorem RowKept.of_entry (store : t.store = s.store) (others : ∀ l', l' ≠ l → t.entry l' = s.entry l')
    (ok : DirectoryOk s → DirectoryOk t) (law : t.entry l = LeaseEntry.rebuilt ∨ LawfulEntry i s t l)
    (transit : ∀ x, (t.entry l).transit = some x → (s.entry l).transit = some x) : RowKept i s t where
  dir_ok := ok
  payload k := by rwa [PayloadOk, store]
  store_ok k := k.of_store store
  transit _ k := by
    refine k.update (fun l' x e => ?_) fun _ x _ => ?_
    · rcases eq_or_ne l' l with rfl | ne
      · exact transit x e
      · rwa [others l' ne] at e
    · rw [State.desc, State.desc, store]
      exact .refl _
  retired c e := by rwa [State.mapEntry, store]
  usage _ h := by
    refine ⟨le_max_of_le_left (le_of_eq ?_), le_max_of_le_left (le_of_eq ?_)⟩
    · simp only [descUsage, State.desc, store]
    · simp only [cellUsage, State.cellUsedBy, State.mapEntry, State.desc, store]
  entries l' := by
    rcases eq_or_ne l' l with rfl | ne
    · exact law
    · exact .inr (.of_same (others l' ne))

theorem LeaseStep.no_new_transit (a : LeaseStep l s t) (x : Transit) (e : (t.entry l).transit = some x) :
    (s.entry l).transit = some x := by
  rcases a.law with rebuilt | law
  · rw [rebuilt] at e
    cases e
  · exact law.transit x e

theorem LeaseStep.row (a : LeaseStep l s t) : RowKept i s t :=
  .of_entry a.at_entry.store a.at_entry.others a.ok (a.law.imp id .of_law) a.no_new_transit

/-- Work of the store after a step of the directory that left the lease out of transit. -/
theorem RowKept.then_store (a : RowKept i s t) (none : (t.entry l).transit = none) (others : ∀ l', l' ≠ l → t.entry l' = s.entry l')
    (b : StoreKept t u) : RowKept i s u where
  dir_ok ok := b.dir_ok (a.dir_ok ok)
  payload ok := b.payload (a.payload ok)
  store_ok ok := b.store_ok (a.store_ok ok)
  transit ok carried := b.transit (a.store_ok ok) (a.transit ok carried)
  retired c e := b.retired c (a.retired c e)
  usage ok h := by
    have first := a.usage ok h
    have second := b.usage (a.store_ok ok) h
    rw [b.served.descQuota, b.served.cellQuota]
    omega
  entries l' := by
    rcases b.entries l' with same | rebuilt | ⟨transit, failed⟩
    · refine (a.entries l').imp (fun r => same.trans r) fun law => ?_
      exact ⟨same ▸ law.generation, same ▸ law.exclusive, same ▸ law.value⟩
    · exact .inl rebuilt
    · have ne : l' ≠ l := by
        rintro rfl
        rw [none] at transit
        cases transit
      rw [others l' ne] at failed
      exact .inr (.of_law (failed ▸ (s.entry l').failed_keeps.law))

end

end Sys2Proof.Machine
end

section
/-! PROOF. PAY, COMMIT and ACCEPT keep the store and the payload sound (R84, R110 to R114, R121, R129). -/

namespace Sys2Proof.Machine

open Sys2Proof

section
variable {s t : State} {d : DescId} {h : HostId} {m : Message}

/-! ## The payload (R84, R110) -/

theorem Memory.writeBytes_mem {bytes : List Byte} {mem : List Host.Cell} {a : Nat} {c : Host.Cell}
    (here : c ∈ Memory.writeBytes mem a bytes) : c ∈ mem ∨ (a ≤ c.1 ∧ c.1 < a + bytes.length) := by
  induction bytes generalizing mem a with
  | nil => exact .inl here
  | cons b bs ih =>
    rw [List.length_cons]
    rcases ih here with before | ⟨low, high⟩
    · rcases Memory.write_mem before with before | at_a
      · exact .inl before
      · exact .inr (by omega)
    · exact .inr (by omega)

/-- A cell's bytes lie within the payload. -/
theorem writeCell_payloadOk (c : CellId) (offset : Nat) (bytes : List Byte) (ok : PayloadOk s) :
    PayloadOk (writeCell c offset bytes s) := by
  refine ⟨writeCell_wf c offset bytes ok.1, fun x mem => ?_⟩
  rcases Memory.writeBytes_mem mem with before | ⟨low, high⟩
  · exact ok.2 x before
  · have length := List.length_take_le (Config.cellBytes - offset) bytes
    have cell := c.isLt
    simp only [cellAddr, Config.cellBytes] at *
    by_cases within : offset ≤ 16
    · omega
    · have : (bytes.take (16 - offset)).length = 0 := by
        rw [show 16 - offset = 0 by omega]
        rfl
      omega

theorem writeCell_kept (c : CellId) (offset : Nat) (bytes : List Byte) (s : State) : StoreKept s (writeCell c offset bytes s) :=
  .of_same (writeCell_work ..).served rfl (fun _ => rfl) (fun _ => rfl) rfl rfl rfl rfl (writeCell_payloadOk c offset bytes)

theorem readCell_kept (d : DescId) (c : CellId) (s : State) : StoreKept s (readCell d c s) := by
  unfold readCell
  split
  · exact .refl s
  · exact .of_same ((setCellChk_work ..).trans (raiseCorrected_work _)).served rfl (fun _ => rfl) (fun _ => rfl) rfl rfl rfl rfl id
  · exact (markDamaged_kept d s).storeFinding ..

/-- What PAY's reads and writes of cells leave of the records and of every message. -/
structure MessagesKept (s t : State) : Prop where
  kept : StoreKept s t
  msg : ∀ o, (t.desc o).msg = (s.desc o).msg
  streams : t.store.streams = s.store.streams

theorem MessagesKept.trans {u : State} (a : MessagesKept s t) (b : MessagesKept t u) : MessagesKept s u :=
  ⟨a.kept.trans b.kept, fun o => (b.msg o).trans (a.msg o), b.streams.trans a.streams⟩

theorem MapRead.messages (a : MapRead s t) : MessagesKept s t :=
  ⟨a.kept, fun o => by rw [a.links.descs], a.links.streams⟩

theorem markDamaged_messages (d : DescId) (s : State) : MessagesKept s (markDamaged d s) := by
  refine ⟨markDamaged_kept d s, fun o => ?_, rfl⟩
  rcases eq_or_ne d o with rfl | ne
  · exact markDamaged_desc_msg d s
  · rw [markDamaged, State.putDesc_desc_ne _ _ _ _ ne]

theorem readCell_messages (d : DescId) (c : CellId) (s : State) : MessagesKept s (readCell d c s) := by
  have kept := readCell_kept d c s
  unfold readCell at kept ⊢
  split at kept
  · exact ⟨kept, fun _ => rfl, rfl⟩
  · exact ⟨kept, fun _ => rfl, rfl⟩
  · refine ⟨kept, fun o => ?_, ?_⟩
    · rw [State.storeFinding_eq]
      exact (markDamaged_messages d s).msg o
    · rw [State.storeFinding_eq]
      rfl

theorem appendBytes_messages (d : DescId) (k : Nat) (bytes : List Byte) (s : State) :
    MessagesKept s (appendBytes d k bytes s) := by
  have read := (readMap_mapRead s).messages
  have write : ∀ (c : CellId) (o : Nat) (bs : List Byte) (u : State), MessagesKept u (writeCell c o bs u) := fun c o bs u =>
    ⟨writeCell_kept c o bs u, fun _ => rfl, rfl⟩
  unfold appendBytes
  dsimp only
  split
  · exact read.trans (markDamaged_messages d _)
  · split
    · exact read.trans (write ..)
    · exact (read.trans (readCell_messages d _ _)).trans (write ..)

theorem fetchBytes_messages (d : DescId) (k n : Nat) (s : State) : MessagesKept s (fetchBytes d k n s).2 := by
  have read := (readMap_mapRead s).messages
  unfold fetchBytes
  dsimp only
  split
  · exact read.trans (markDamaged_messages d _)
  · dsimp only
    exact read.trans (readCell_messages d _ _)

/-- A message's written count raised by the bytes of one word, while it is not yet full (R110). -/
theorem advanceWritten_kept (d : DescId) {n : Nat} (msg : (s.desc d).msg = some m) (room : m.written < m.length)
    (count : n = min 2 (m.length - m.written)) : StoreKept s (advanceWritten d n s) := by
  unfold advanceWritten
  simp only [msg]
  refine (StoreKept.refl s).then_amend rfl rfl rfl (by rw [msg]; rfl) (fun ok m' msg' => ?_) fun _ _ _ _ _ _ _ => ?_
  · cases msg'
    have := ((ok.desc d).message m msg).2.2
    dsimp only
    omega
  · exact ⟨‹_›, by rw [msg]; rfl⟩

/-- A PAY word sets overrun, or is work of the store (R111). -/
theorem storePayWord_cases (h : HostId) (w : Word) (s : State) :
    storePayWord h w s = s.setOverrun h ∨ StoreKept s (storePayWord h w s) := by
  unfold storePayWord
  split
  · exact .inl rfl
  · next d _ =>
    split
    · exact .inl rfl
    · next m msg =>
      split
      · exact .inl rfl
      · next room =>
        have append := appendBytes_messages d m.written ((wordBytes w).take (min 2 (m.length - m.written))) s
        exact .inr (append.kept.trans (advanceWritten_kept d (by rw [append.msg, msg]) (Nat.not_le.mp room) rfl))

/-- The read position of an open message moved to an even position or the end (R121). -/
theorem readPos_kept {p : Nat} (opened : (s.stream h).openDesc = some d)
    (within : StoreOk s → ∀ m, (s.desc d).msg = some m → p ≤ m.length ∧ (p % 2 = 0 ∨ p = m.length)) :
    StoreKept s (s.setStream h { s.stream h with readPos := p }) := by
  have stream : ∀ g, (s.setStream h { s.stream h with readPos := p }).stream g
      = if h = g then { s.stream h with readPos := p } else s.stream g := fun g => State.setStream_stream ..
  have assembling : ∀ g, ((s.setStream h { s.stream h with readPos := p }).stream g).assembling = (s.stream g).assembling := by
    intro g
    rw [stream]
    split
    · next e => rw [e]
    · rfl
  have open_same : ∀ g, ((s.setStream h { s.stream h with readPos := p }).stream g).openDesc = (s.stream g).openDesc := by
    intro g
    rw [stream]
    split
    · next e => rw [e]
    · rfl
  refine .at_desc d (setStream_work ..).served rfl rfl (fun _ => id) (fun ok => ⟨ok.lists.nodup, ok.lists.waiting, ok.lists.queues⟩)
    (fun _ o ne => ?_) (fun ok => ?_) (fun _ _ _ _ _ _ => .refl _)
    (fun _ => usage_of_used (d := d) (fun _ => rfl) (fun _ _ => rfl) fun _ => id)
  · refine ⟨rfl, fun _ => .rfl, fun g => by rw [assembling], fun g => by rw [open_same], fun g e => ?_, fun _ => .rfl,
      fun _ _ => id⟩
    rw [open_same] at e
    rw [stream]
    split
    · next same =>
      rw [← same, opened] at e
      exact absurd (Option.some.inj e) ne
    · rfl
  · have was := ok.desc d
    refine ⟨was.reserved, fun g => by rw [assembling]; exact was.assembling g, was.msg, fun g => by rw [open_same]; exact was.opened g,
      was.queued, was.message, fun g m e msg => ?_, was.cells, was.unique⟩
    rw [open_same] at e
    rw [stream]
    split
    · exact within ok m msg
    · exact was.readPos g m e msg

/-- A PAY read sets overrun, or is work of the store (R121). -/
theorem storePayRead_cases (h : HostId) (s : State) :
    (storePayRead h s).2 = s.setOverrun h ∨ StoreKept s (storePayRead h s).2 := by
  unfold storePayRead
  split
  · exact .inl rfl
  · next d opened =>
    dsimp only
    cases msg : (s.desc d).msg with
    | none =>
      rw [if_pos (Nat.zero_le _)]
      exact .inl rfl
    | some m =>
      dsimp only
      split
      · exact .inl rfl
      · next room =>
        refine .inr ?_
        dsimp only
        have fetch := fetchBytes_messages d (s.stream h).readPos (min 2 (m.length - (s.stream h).readPos)) s
        have stream : ∀ g, (fetchBytes d (s.stream h).readPos (min 2 (m.length - (s.stream h).readPos)) s).2.stream g
            = s.stream g := State.stream_congr fetch.streams
        refine fetch.kept.trans (readPos_kept (d := d) (by rw [stream, opened]) fun ok m' msg' => ?_)
        rw [fetch.msg, msg] at msg'
        cases msg'
        have bounds := (ok.desc d).readPos h m (by rw [stream, opened]) (by rw [fetch.msg, msg])
        rw [stream] at bounds
        omega

/-! ## COMMIT (R113, R114) -/

/-- The answers that let COMMIT go on, and what was done for them. -/
inductive CommitPassed (h : HostId) (d : DescId) (m : Message) (s t : State) : Option (LeaseId × Word) → Prop
  | empty (carried : m.carried = none) (work : TransferWork s t) : CommitPassed h d m s t none
  | lease (u : State) (l : LeaseId) (carried : m.carried = some l) (work : TransferWork s u)
      (acts : (u.entry l).acts h = true) (here : (u.entry l).transit = none)
      (put : t = u.putEntry l { u.entry l with transit := some ⟨d, m.dest⟩, ownerPresent := true }) :
      CommitPassed h d m s t (some (l, (u.entry l).generation))

theorem commitQuestion_cases (h : HostId) (d : DescId) (m : Message) (s : State) :
    (∃ c, (commitQuestion h d m s).1 = .pass c ∧ CommitPassed h d m s (commitQuestion h d m s).2 c)
      ∨ ((∀ c, (commitQuestion h d m s).1 ≠ .pass c) ∧ TransferWork s (commitQuestion h d m s).2) := by
  have work := (readOptEntry_transferWork (m.fence.map Prod.fst) s).trans
    (readOptEntry_transferWork m.carried (readOptEntry (m.fence.map Prod.fst) s).2)
  unfold commitQuestion
  dsimp only
  generalize (readOptEntry m.carried (readOptEntry (m.fence.map Prod.fst) s).2) = r at work ⊢
  split
  · exact .inr ⟨nofun, work⟩
  split
  · next a refused =>
    refine .inr ⟨fun c e => ?_, work⟩
    dsimp only at e
    subst e
    unfold fenceRefusal at refused
    split at refused
    · cases refused
    · split at refused <;> cases refused
  split
  · next carried => exact .inl ⟨none, rfl, .empty carried work⟩
  · next l carried =>
    split
    · exact .inr ⟨nofun, work⟩
    · next acts =>
      split
      · exact .inr ⟨nofun, work⟩
      · next here =>
        refine .inl ⟨_, rfl, .lease r.2 l carried work ?_ ?_ rfl⟩
        · simpa using acts
        · simpa using here

theorem InboundQueue.push_perm (q : InboundQueue) (d : DescId) (c : MsgClass) :
    List.Perm ((q.push d c).urgent ++ (q.push d c).normal) (d :: (q.urgent ++ q.normal)) := by
  cases c with
  | urgent =>
    show List.Perm ((q.urgent ++ [d]) ++ q.normal) _
    rw [List.append_assoc]
    exact List.perm_middle
  | normal =>
    show List.Perm (q.urgent ++ (q.normal ++ [d])) _
    rw [← List.append_assoc]
    exact List.perm_append_singleton ..

section
variable (h d m) (s : State)

theorem placeMessage_desc (o : DescId) :
    (placeMessage h d m s).desc o = if d = o then { s.desc d with state := .queued } else s.desc o := State.putDesc_desc ..

theorem placeMessage_stream (g : HostId) : (placeMessage h d m s).stream g =
    if h = g then { s.stream h with assembling := none } else s.stream g := State.setStream_stream ..

theorem placeMessage_queue (g : HostId) :
    List.Perm ((placeMessage h d m s).queue g) (if m.dest = g then d :: s.queue g else s.queue g) := by
  have inbound : (placeMessage h d m s).store.inbound.get g =
      if m.dest = g then (s.store.inbound.get m.dest).push d m.cls else s.store.inbound.get g := upd_get ..
  rw [State.queue, inbound, State.queue]
  split
  · next e =>
    subst e
    exact InboundQueue.push_perm ..
  · exact .refl _

theorem mem_placeMessage_queue (g : HostId) (o : DescId) :
    o ∈ (placeMessage h d m s).queue g ↔ (m.dest = g ∧ o = d) ∨ o ∈ s.queue g := by
  rw [(placeMessage_queue d h m s g).mem_iff]
  split
  · next e => simp [e]
  · next ne => simp [ne]

end

theorem placeMessage_sound (assembling : (s.stream h).assembling = some d) (msg : (s.desc d).msg = some m) (ok : StoreOk s) :
    DescSound (placeMessage h d m s) d := by
  have was := ok.desc d
  obtain ⟨state, source⟩ := (was.assembling h).mp assembling
  have here : (placeMessage h d m s).desc d = { s.desc d with state := .queued } := by rw [placeMessage_desc, if_pos rfl]
  have open_same : ∀ g, ((placeMessage h d m s).stream g).openDesc = (s.stream g).openDesc := fun g => by
    rw [placeMessage_stream]
    split
    · next e => rw [e]
    · rfl
  have not_open : ∀ g, (s.stream g).openDesc ≠ some d := fun g e => by
    have := ((was.opened g).mp e).1
    rw [state] at this
    cases this
  have not_queued : ∀ g, d ∉ s.queue g := fun g mem => by
    have := (was.state_of_mem mem).1
    rw [state] at this
    simp at this
  constructor
  · intro g
    rw [here]
    refine ⟨fun e => ?_, fun e => nomatch e.1⟩
    have := ((was.reserved g).mp e).1
    rw [state] at this
    cases this
  · intro g
    rw [here, placeMessage_stream]
    refine ⟨fun e => ?_, fun e => nomatch e.1⟩
    split at e
    · cases e
    · next ne => exact absurd (source.symm.trans ((was.assembling g).mp e).2) ne
  · rw [here]
    nofun
  · intro g
    rw [here, open_same]
    exact ⟨fun e => absurd e (not_open g), fun e => nomatch e.1⟩
  · intro g
    rw [here, mem_placeMessage_queue]
    simp [not_queued, msg]
  · rw [here]
    exact was.message
  · intro g m' e
    rw [open_same] at e
    exact absurd e (not_open g)
  · intro c p owned
    rw [here]
    exact ⟨nofun, (was.cells c p owned).2⟩
  · exact was.unique

theorem placeMessage_served (d : DescId) (h : HostId) (m : Message) (s : State) : Served s (placeMessage h d m s) := by
  constructor <;> intros <;> rfl

/-- The message placed (R114). -/
theorem placeMessage_kept (assembling : (s.stream h).assembling = some d) (msg : (s.desc d).msg = some m) :
    StoreKept s (placeMessage h d m s) := by
  refine .at_desc d (placeMessage_served d h m s) rfl rfl (fun _ => id) (fun ok => ⟨ok.lists.nodup, ok.lists.waiting, fun g => ?_⟩)
    (fun ok o ne => ?_) (placeMessage_sound assembling msg) (fun ok carried l x e names => ?_)
    (fun ok => usage_of_used (d := d) (fun _ => rfl) (fun o ne => State.putDesc_desc_ne _ _ _ _ ne) fun g used => ?_)
  · rw [(placeMessage_queue d h m s g).nodup_iff]
    split
    · refine List.nodup_cons.mpr ⟨fun mem => ?_, ok.lists.queues g⟩
      have := ((ok.desc d).state_of_mem mem).1
      rw [(((ok.desc d).assembling h).mp assembling).1] at this
      simp at this
    · exact ok.lists.queues g
  · refine ⟨State.putDesc_desc_ne _ _ _ _ ne, fun _ => .rfl, fun g => ?_, fun g => ?_, fun g _ => ?_, fun g => ?_, fun _ _ => id⟩
    · rw [placeMessage_stream]
      split
      · next e =>
        rw [← e, assembling]
        simp [ne]
      · exact .rfl
    · rw [placeMessage_stream]
      split
      · next e => rw [e]
      · exact .rfl
    · rw [placeMessage_stream]
      split
      · next e => rw [e]
      · rfl
    · rw [mem_placeMessage_queue]
      simp [ne.symm]
  · have state := (((ok.desc d).assembling h).mp assembling).1
    intro carries
    rw [state] at carries
    simp at carries
  · rw [placeMessage_desc, if_pos rfl] at used
    have state := (((ok.desc d).assembling h).mp assembling).1
    simp only [Descriptor.usedBy, Bool.and_eq_true, decide_eq_true_eq] at used ⊢
    exact ⟨by rw [state]; nofun, used.2⟩

end

end Sys2Proof.Machine
end

section
/-! PROOF. What every row but device reset keeps of the presence unit, the ports, the rings and the settings: stated once,
block by block, with the rules by which a row comes to it (O54, O57, O58). -/

namespace Sys2Proof.Machine

open Sys2Proof

/-! ## Block by block -/

/-- What a row keeps of the presence records, and which row may fence by EVICT or change a session. -/
structure PresenceKept (i : Instr) (s t : State) : Prop where
  ok : PresenceOk s → PresenceOk t
  fence : ∀ g, (t.record g).fence = some .evicted → (s.record g).fence ≠ some .evicted →
    ∃ h v, i = .evict h v ∧ v.toNat = g.val ∧ h ≠ g ∧ (s.entry 0).acts h = true
  session : ∀ g, (t.record g).session ≠ (s.record g).session → i = .join g ∧ (s.record g).state ≠ .joined

/-- What a row keeps of the ports, and whose window it may change. -/
structure PortsKept (i : Instr) (s t : State) : Prop where
  ok : PortsOk s → PortsOk t
  view : (∀ pins, i ≠ .resetnRelease pins) → ∀ g, hostOf i ≠ some g → (t.port g).view = (s.port g).view

/-- What a row keeps of the settings, the counts and the time base, and which row may change them. -/
structure SettingsKept (i : Instr) (s t : State) : Prop where
  ok : SettingsOk s → SettingsOk t
  setting : ∀ x, t.setting x ≠ s.setting x → ∃ h p v, i = .setParam h p v ∧ (s.entry 0).acts h = true
  counts : SettingsOk s → t.settings.corrected < s.settings.corrected ∨ t.settings.uncorrected < s.settings.uncorrected →
    ∃ h, i = .clearCounts h ∧ (s.entry 0).acts h = true

/-- What a row keeps of all these and of the queue of waiting commands. -/
structure RowFrame (i : Instr) (s t : State) : Prop where
  pending : t.pending = s.pending
  presence : PresenceKept i s t
  ports : PortsKept i s t
  rings : RingsOk s → RingsOk t
  settings : SettingsKept i s t

section
variable {i : Instr} {s t u : State}

theorem PresenceKept.of_same (records : ∀ g, t.record g = s.record g) (resetn : t.resetn = s.resetn)
    (prstn : ∀ g, (t.port g).prstn = (s.port g).prstn) : PresenceKept i s t where
  ok ok g := by
    rw [records, resetn, prstn]
    exact ok g
  fence g evicted other := by
    rw [records] at evicted
    exact absurd evicted other
  session g other := absurd (by rw [records]) other

theorem Port.ok_of_view {p q : Port} (view : p.view = q.view) (ok : q.Ok) : p.Ok := by
  obtain ⟨args, -, replyPos, busy, replyReady, -⟩ := WindowView.mk.inj view
  obtain ⟨short, position, exclusive⟩ := ok
  refine ⟨?_, ?_, ?_⟩
  · rwa [args]
  · rwa [replyPos]
  · rwa [busy, replyReady]

theorem PortsKept.of_views (views : ∀ g, (t.port g).view = (s.port g).view) : PortsKept i s t where
  ok ok g := Port.ok_of_view (views g) (ok g)
  view _ g _ := views g

/-- A row of one host that changes that host's port alone. -/
theorem PortsKept.of_port {h : HostId} (own : hostOf i = some h) (others : ∀ g, h ≠ g → (t.port g).view = (s.port g).view)
    (here : (s.port h).Ok → (t.port h).Ok) : PortsKept i s t where
  ok ok g := by
    rcases eq_or_ne h g with rfl | ne
    · exact here (ok h)
    · exact Port.ok_of_view (others g ne) (ok g)
  view _ g other := others g fun e => other (e ▸ own)

theorem SettingsKept.of_same (settings : ∀ x, t.setting x = s.setting x) (corrected : t.settings.corrected = s.settings.corrected)
    (uncorrected : t.settings.uncorrected = s.settings.uncorrected) (timeBase : t.timeBase = s.timeBase)
    (descQuota : t.store.descQuota = s.store.descQuota) (cellQuota : t.store.cellQuota = s.store.cellQuota)
    (inboundLimit : t.store.inboundLimit = s.store.inboundLimit) (changes : t.store.changes = s.store.changes) :
    SettingsKept i s t where
  ok ok := by
    unfold SettingsOk
    rw [corrected, uncorrected, timeBase, descQuota, cellQuota, inboundLimit, changes]
    simp only [settings]
    exact ok
  setting x other := absurd (settings x) other
  counts _ fewer := by
    rw [corrected, uncorrected] at fewer
    omega

theorem Served.view (a : Served s t) (g : HostId) : (t.port g).view = (s.port g).view := by
  rw [a.port g]
  rfl

theorem Served.record (a : Served s t) (g : HostId) : t.record g = s.record g := State.record_congr a.presence g

theorem Served.setting (a : Served s t) (x : Setting) : t.setting x = s.setting x := by
  unfold State.setting
  rw [a.settings]

theorem Served.presenceKept (a : Served s t) : PresenceKept i s t :=
  .of_same a.record a.resetn fun g => by rw [a.port g]

theorem Served.portsKept (a : Served s t) : PortsKept i s t := .of_views a.view

theorem Served.rings (a : Served s t) (ok : RingsOk s) : RingsOk t := by
  intro h
  rw [State.ring, State.lost, a.notice]
  exact ok h

theorem Served.settingsKept (a : Served s t) : SettingsKept i s t :=
  .of_same a.setting (by rw [a.settings]) (by rw [a.settings]) a.timeBase a.descQuota a.cellQuota a.inboundLimit a.changes

/-- The rows of the directory and of the store touch none of these. -/
theorem Served.frame (a : Served s t) : RowFrame i s t := ⟨a.pending, a.presenceKept, a.portsKept, a.rings, a.settingsKept⟩

/-! ## Work before a row -/

theorem PresenceKept.after (records : ∀ g, t.record g = s.record g) (resetn : t.resetn = s.resetn)
    (prstn : ∀ g, (t.port g).prstn = (s.port g).prstn) (entry : t.entry 0 = s.entry 0) (b : PresenceKept i t u) :
    PresenceKept i s u where
  ok ok := b.ok ((PresenceKept.of_same (i := i) records resetn prstn).ok ok)
  fence g evicted other := by
    rw [← records, ← entry] at *
    exact b.fence g evicted other
  session g other := by
    rw [← records] at *
    exact b.session g other

end

end Sys2Proof.Machine
end

section
/-! PROOF. A row's work as routine work around the one change that an invariant reads: the rules that put the two
together. -/

namespace Sys2Proof.Machine

open Sys2Proof

/-- All that a row other than device reset keeps. -/
structure RowOk (i : Instr) (s t : State) : Prop where
  kept : RowKept i s t
  frame : RowFrame i s t

/-- Work that changes nothing an invariant reads, but that the term of a JOINED host may be reloaded: commands taken off
their paths, replies and notices sent on their way, items announced. -/
structure Routine (s t : State) : Prop where
  objects : SameObjects s t
  pending : t.pending = s.pending
  record : ∀ g, t.record g = s.record g
    ∨ ((s.record g).state = .joined ∧ ∃ k, t.record g = { s.record g with term := some k })
  resetn : t.resetn = s.resetn
  prstn : ∀ g, (t.port g).prstn = (s.port g).prstn
  view : ∀ g, (t.port g).view = (s.port g).view
  ring : ∀ g, t.ring g = s.ring g
  lost : ∀ g, t.lost g = s.lost g
  setting : ∀ x, t.setting x = s.setting x
  corrected : t.settings.corrected = s.settings.corrected
  uncorrected : t.settings.uncorrected = s.settings.uncorrected
  timeBase : t.timeBase = s.timeBase
  descQuota : t.store.descQuota = s.store.descQuota
  cellQuota : t.store.cellQuota = s.store.cellQuota
  inboundLimit : t.store.inboundLimit = s.store.inboundLimit
  changes : t.store.changes = s.store.changes

section
variable {i : Instr} {s t u : State} {h : HostId}

theorem Routine.fence (a : Routine s t) (g : HostId) : (t.record g).fence = (s.record g).fence := by
  rcases a.record g with same | ⟨-, k, reloaded⟩
  · rw [same]
  · rw [reloaded]

theorem Routine.session (a : Routine s t) (g : HostId) : (t.record g).session = (s.record g).session := by
  rcases a.record g with same | ⟨-, k, reloaded⟩
  · rw [same]
  · rw [reloaded]

theorem Routine.state (a : Routine s t) (g : HostId) : (t.record g).state = (s.record g).state := by
  rcases a.record g with same | ⟨-, k, reloaded⟩
  · rw [same]
  · rw [reloaded]

theorem Routine.trans (a : Routine s t) (b : Routine t u) : Routine s u where
  objects := a.objects.trans b.objects
  pending := b.pending.trans a.pending
  record g := by
    rcases b.record g with same | ⟨joined, k, reloaded⟩
    · rw [same]
      exact a.record g
    · rcases a.record g with same' | ⟨joined', k', reloaded'⟩
      · exact .inr ⟨same' ▸ joined, k, by rw [reloaded, same']⟩
      · exact .inr ⟨joined', k, by rw [reloaded, reloaded']⟩
  resetn := b.resetn.trans a.resetn
  prstn g := (b.prstn g).trans (a.prstn g)
  view g := (b.view g).trans (a.view g)
  ring g := (b.ring g).trans (a.ring g)
  lost g := (b.lost g).trans (a.lost g)
  setting x := (b.setting x).trans (a.setting x)
  corrected := b.corrected.trans a.corrected
  uncorrected := b.uncorrected.trans a.uncorrected
  timeBase := b.timeBase.trans a.timeBase
  descQuota := b.descQuota.trans a.descQuota
  cellQuota := b.cellQuota.trans a.cellQuota
  inboundLimit := b.inboundLimit.trans a.inboundLimit
  changes := b.changes.trans a.changes

theorem Served.routine (a : Served s t) (objects : SameObjects s t) : Routine s t where
  objects := objects
  pending := a.pending
  record g := .inl (a.record g)
  resetn := a.resetn
  prstn g := by rw [a.port g]
  view := a.view
  ring g := by rw [State.ring, a.notice]; rfl
  lost g := by rw [State.lost, a.notice]; rfl
  setting := a.setting
  corrected := by rw [a.settings]
  uncorrected := by rw [a.settings]
  timeBase := a.timeBase
  descQuota := a.descQuota
  cellQuota := a.cellQuota
  inboundLimit := a.inboundLimit
  changes := a.changes

theorem Routine.presence_ok (a : Routine s t) (ok : PresenceOk s) : PresenceOk t := by
  intro g
  obtain ⟨⟨session, positive, term, fence⟩, offline⟩ := ok g
  rw [a.resetn, a.prstn, PresenceRecord.Ok, a.fence, a.session, a.state]
  refine ⟨⟨session, positive, ?_, fence⟩, offline⟩
  rcases a.record g with same | ⟨joined, k, reloaded⟩
  · rwa [same]
  · rw [reloaded]
    simp [joined]

theorem Routine.ports_ok (a : Routine s t) (ok : PortsOk s) : PortsOk t := fun g => Port.ok_of_view (a.view g) (ok g)

theorem Routine.rings_ok (a : Routine s t) (ok : RingsOk s) : RingsOk t := fun g => by
  rw [a.ring, a.lost]
  exact ok g

theorem Routine.settings_ok (a : Routine s t) (ok : SettingsOk s) : SettingsOk t := by
  unfold SettingsOk
  rw [a.corrected, a.uncorrected, a.timeBase, a.descQuota, a.cellQuota, a.inboundLimit, a.changes]
  simp only [a.setting]
  exact ok

/-- A row after routine work. -/
theorem RowOk.after (a : Routine s t) (b : RowOk i t u) : RowOk i s u where
  kept := b.kept.after a.objects
  frame := {
    pending := b.frame.pending.trans a.pending
    presence := {
      ok := fun ok => b.frame.presence.ok (a.presence_ok ok)
      fence := fun g evicted other => by
        rw [← a.objects.entry]
        exact b.frame.presence.fence g evicted (a.fence g ▸ other)
      session := fun g other => by
        rw [← a.session] at other
        rw [← a.state]
        exact b.frame.presence.session g other }
    ports := {
      ok := fun ok => b.frame.ports.ok (a.ports_ok ok)
      view := fun pins g other => (b.frame.ports.view pins g other).trans (a.view g) }
    rings := fun ok => b.frame.rings (a.rings_ok ok)
    settings := {
      ok := fun ok => b.frame.settings.ok (a.settings_ok ok)
      setting := fun x other => by
        rw [← a.setting] at other
        rw [← a.objects.entry]
        exact b.frame.settings.setting x other
      counts := fun ok fewer => by
        rw [← a.corrected, ← a.uncorrected] at fewer
        rw [← a.objects.entry]
        exact b.frame.settings.counts (a.settings_ok ok) fewer } }

theorem Routine.row (a : Routine s t) : RowOk i s t where
  kept := a.objects.row
  frame := {
    pending := a.pending
    presence := ⟨a.presence_ok, fun g evicted other => absurd (a.fence g ▸ evicted) other,
      fun g other => absurd (a.session g) other⟩
    ports := .of_views a.view
    rings := a.rings_ok
    settings := .of_same a.setting a.corrected a.uncorrected a.timeBase a.descQuota a.cellQuota a.inboundLimit a.changes }

theorem RowKept.then_objects (b : RowKept i s t) (a : SameObjects t u) (descQuota : u.store.descQuota = t.store.descQuota)
    (cellQuota : u.store.cellQuota = t.store.cellQuota) : RowKept i s u where
  dir_ok ok := a.dir_ok (b.dir_ok ok)
  payload ok := a.payload (b.payload ok)
  store_ok ok := a.store_ok (b.store_ok ok)
  transit ok carried := a.transit (b.transit ok carried)
  retired c e := (a.mapEntry c).trans (b.retired c e)
  usage ok h := by
    rw [(a.usage h).1, (a.usage h).2, descQuota, cellQuota]
    exact b.usage ok h
  entries l := by
    have same := a.entry l
    refine (b.entries l).imp (fun r => same.trans r) fun law => ?_
    exact ⟨same ▸ law.generation, same ▸ law.exclusive, same ▸ law.value⟩

/-- Routine work after a row. -/
theorem RowOk.then (b : RowOk i s t) (a : Routine t u) : RowOk i s u where
  kept := b.kept.then_objects a.objects a.descQuota a.cellQuota
  frame := {
    pending := a.pending.trans b.frame.pending
    presence := {
      ok := fun ok => a.presence_ok (b.frame.presence.ok ok)
      fence := fun g evicted other => b.frame.presence.fence g (a.fence g ▸ evicted) other
      session := fun g other => b.frame.presence.session g (a.session g ▸ other) }
    ports := {
      ok := fun ok => a.ports_ok (b.frame.ports.ok ok)
      view := fun pins g other => (a.view g).trans (b.frame.ports.view pins g other) }
    rings := fun ok => a.rings_ok (b.frame.rings ok)
    settings := {
      ok := fun ok => a.settings_ok (b.frame.settings.ok ok)
      setting := fun x other => b.frame.settings.setting x (a.setting x ▸ other)
      counts := fun ok fewer => b.frame.settings.counts ok (by rwa [a.corrected, a.uncorrected] at fewer) } }

/-! ## Routine work -/

theorem Routine.refl (s : State) : Routine s s := (Served.refl s).routine (.refl s)

theorem routine_sendReply (s : State) (h : HostId) (r : Reply) : Routine s (s.sendReply h r) :=
  (sendReply_served s h r).routine (.of_blocks rfl rfl)

theorem routine_reply (s : State) (h : HostId) (id : Nat) (st : Status) (ws : List Word) :
    Routine s (s.reply h id st ws) := routine_sendReply ..

theorem RowOk.reply (a : RowOk i s t) (h : HostId) (id : Nat) (st : Status) (ws : List Word) :
    RowOk i s (t.reply h id st ws) := a.then (routine_reply ..)

theorem routine_setDirPath (s : State) (p : List PathItem) : Routine s (s.setDirPath p) :=
  (setDirPath_served s p).routine ⟨rfl, rfl, rfl, rfl, rfl⟩

theorem routine_setStorePath (s : State) (p : List StoreItem) : Routine s (s.setStorePath p) :=
  (setStorePath_served s p).routine ⟨rfl, rfl, rfl, rfl, rfl⟩

theorem routine_setNoticePath (s : State) (p : List PathItem) : Routine s (s.setNoticePath p) :=
  (setNoticePath_served s p).routine (.of_blocks rfl rfl)

theorem routine_setSettingsPath (s : State) (p : List PathItem) : Routine s (s.setSettingsPath p) :=
  (setSettingsPath_served s p).routine (.of_blocks rfl rfl)

theorem routine_announce (s : State) (x : PathItem) : Routine s (s.announce x) :=
  ((routine_setDirPath ..).trans (routine_setStorePath ..)).trans (routine_setNoticePath ..)

theorem routine_offerPeers (s : State) (h : HostId) (n : Notice) : Routine s (s.offerPeers h n) := by
  rw [State.offerPeers_eq]
  exact Served.routine (by constructor <;> intros <;> rfl) (.of_blocks rfl rfl)

/-- A port changed in what no host sees of it but at its PRSTn pin. -/
theorem routine_setPort (s : State) (h : HostId) (p : Port) (view : p.view = (s.port h).view)
    (prstn : p.prstn = (s.port h).prstn) : Routine s (s.setPort h p) where
  objects := .of_blocks rfl rfl
  pending := rfl
  record _ := .inl rfl
  resetn := rfl
  prstn g := by
    rcases eq_or_ne h g with rfl | ne
    · rw [State.setPort_port_same, prstn]
    · rw [State.setPort_port_ne _ _ _ _ ne]
  view g := by
    rcases eq_or_ne h g with rfl | ne
    · rw [State.setPort_port_same, view]
    · rw [State.setPort_port_ne _ _ _ _ ne]
  ring _ := rfl
  lost _ := rfl
  setting _ := rfl
  corrected := rfl
  uncorrected := rfl
  timeBase := rfl
  descQuota := rfl
  cellQuota := rfl
  inboundLimit := rfl
  changes := rfl

theorem routine_setEvicting (s : State) (h : HostId) (c : Option Command) : Routine s (s.setEvicting h c) where
  objects := .of_blocks rfl rfl
  pending := rfl
  record _ := .inl rfl
  resetn := rfl
  prstn _ := rfl
  view _ := rfl
  ring _ := rfl
  lost _ := rfl
  setting _ := rfl
  corrected := rfl
  uncorrected := rfl
  timeBase := rfl
  descQuota := rfl
  cellQuota := rfl
  inboundLimit := rfl
  changes := rfl

theorem State.setRecord_record (s : State) (h g : HostId) (r : PresenceRecord) :
    (s.setRecord h r).record g = if h = g then r else s.record g := by
  split
  · next e => rw [← e, State.setRecord_record_same]
  · next ne => exact State.setRecord_record_ne _ _ _ _ ne

theorem routine_reloadTerm (s : State) (h : HostId) : Routine s (s.reloadTerm h) := by
  unfold State.reloadTerm
  split
  · next joined =>
    refine ⟨.of_blocks rfl rfl, rfl, fun g => ?_, rfl, fun _ => rfl, fun _ => rfl, fun _ => rfl, fun _ => rfl, fun _ => rfl,
      rfl, rfl, rfl, rfl, rfl, rfl, rfl⟩
    rw [State.setRecord_record]
    split
    · next e =>
      subst e
      exact .inr ⟨joined, _, rfl⟩
    · exact .inl rfl
  · exact .refl s

theorem routine_passParked (s : State) (h : HostId) : Routine s (s.passParked h) :=
  (routine_setStorePath ..).trans (routine_setPort _ h _ rfl rfl)

theorem routine_takeWritten (s : State) (h : HostId) : Routine s (s.takeWritten h) := routine_setPort s h _ rfl rfl

/-- A command taken off its port, the term reloaded, and the PAY words behind it passed on. -/
theorem routine_takePresenceCommand {k : CommandKind} {args : List Word} {id : Nat}
    (taken : s.takePresenceCommand h k args = some (id, t)) : Routine s t := by
  obtain ⟨-, c, -, -, -, -, rfl⟩ := takePresenceCommand_some taken
  exact ((routine_takeWritten s h).trans (routine_reloadTerm _ h)).trans (routine_passParked _ h)

theorem routine_takeFromPort {want : Command → Bool} {c : Command} (taken : s.takeFromPort h want = some (c, t)) :
    Routine s t := by
  obtain ⟨-, -, -, rfl⟩ := takeFromPort_some taken
  exact (routine_takeWritten s h).trans (routine_reloadTerm _ h)

/-! ## The changes that an invariant reads -/

/-- Work of the directory or of the store. -/
theorem RowKept.ok (a : RowKept i s t) (served : Served s t) : RowOk i s t := ⟨a, served.frame⟩

theorem StoreKept.ok (a : StoreKept s t) : RowOk i s t := a.row.ok a.served

theorem LeaseStep.row_ok {l : LeaseId} (a : LeaseStep l s t) : RowOk i s t := a.row.ok a.at_entry.served

/-- A presence record replaced. -/
theorem RowOk.setRecord (s : State) (h : HostId) (r : PresenceRecord)
    (ok : PresenceOk s → r.Ok ∧ (r.state = .offline ↔ (s.resetn = true ∨ (s.port h).prstn = true)))
    (fence : r.fence = some .evicted → (s.record h).fence ≠ some .evicted →
      ∃ g v, i = .evict g v ∧ v.toNat = h.val ∧ g ≠ h ∧ (s.entry 0).acts g = true)
    (session : r.session ≠ (s.record h).session → i = .join h ∧ (s.record h).state ≠ .joined) :
    RowOk i s (s.setRecord h r) where
  kept := SameObjects.row (.of_blocks rfl rfl)
  frame := {
    pending := rfl
    presence := {
      ok := fun all g => by
        rw [State.setRecord_record]
        split
        · next e =>
          subst e
          exact ok all
        · exact all g
      fence := fun g evicted other => by
        rw [State.setRecord_record] at evicted
        split at evicted
        · next e =>
          subst e
          exact fence evicted other
        · exact absurd evicted other
      session := fun g other => by
        rw [State.setRecord_record] at other
        split at other
        · next e =>
          subst e
          exact session other
        · exact absurd rfl other }
    ports := .of_views fun _ => rfl
    rings := id
    settings := .of_same (fun _ => rfl) rfl rfl rfl rfl rfl rfl rfl }

/-- A window changed at its own host's port. -/
theorem RowOk.setPort (s : State) (p : Port) (own : hostOf i = some h) (prstn : p.prstn = (s.port h).prstn)
    (ok : (s.port h).Ok → p.Ok) : RowOk i s (s.setPort h p) where
  kept := SameObjects.row (.of_blocks rfl rfl)
  frame := {
    pending := rfl
    presence := .of_same (fun _ => rfl) rfl fun g => by
      rcases eq_or_ne h g with rfl | ne
      · rw [State.setPort_port_same, prstn]
      · rw [State.setPort_port_ne _ _ _ _ ne]
    ports := .of_port own (fun g ne => by rw [State.setPort_port_ne _ _ _ _ ne]) fun q => by
      rw [State.setPort_port_same]
      exact ok q
    rings := id
    settings := .of_same (fun _ => rfl) rfl rfl rfl rfl rfl rfl rfl }

theorem RowOk.setOverrun (s : State) (own : hostOf i = some h) : RowOk i s (s.setOverrun h) := .setPort s _ own rfl id

theorem routine_returnWord (s : State) (h : HostId) (w : Word) : Routine s (s.returnWord h w) := routine_setPort s h _ rfl rfl

/-- A departure delivered to its port, unless a port reset is its cause. -/
theorem routine_deliverDeparture (s : State) (h : HostId) (cause : DepartureCause) :
    Routine s (if cause = .portReset then s
      else s.setPort h { s.port h with departures := (s.port h).departures ++ [cause] }) := by
  split
  · exact Served.routine (.refl s) (.refl s)
  · exact routine_setPort s h _ rfl rfl

/-- A departure raised is a record replaced, and routine work (R15, R16). -/
theorem RowOk.raiseDeparture (s : State) (h : HostId) (cause : DepartureCause) (st : PresenceState) (fence : Option FenceCause)
    (record : RowOk i s (s.setRecord h ⟨st, (s.record h).session, none, fence⟩)) :
    RowOk i s (s.raiseDeparture h cause st fence) :=
  record.then (((routine_announce _ _).trans (routine_deliverDeparture _ h cause)).trans (routine_offerPeers _ h _))

end

end Sys2Proof.Machine
end

section
/-! PROOF. The commands of the directory and of the store, COMMIT and ACCEPT with them: each row keeps what every row
keeps. -/

namespace Sys2Proof.Machine

open Sys2Proof

/-- The row answers a next state, of which this holds. -/
def Answers (o : Host.Outcome State Fault Refusal) (P : State → Prop) : Prop := ∃ t, o = .next t ∧ P t

theorem Answers.next {P : State → Prop} {t : State} (holds : P t) : Answers (.next t) P := ⟨t, rfl, holds⟩

section
variable {i : Instr} {s t u : State} {h : HostId} {k : CommandKind} {args : List Word} {id : Nat} {d : DescId} {m : Message}

/-- Reads have found what they found, and left every entry and every host's usage no higher than it was. -/
structure Looked (s t : State) : Prop where
  kept : StoreKept s t
  entry : ∀ l, t.entry l = s.entry l
  usage : ∀ h, descUsage h t ≤ descUsage h s ∧ cellUsage h t ≤ cellUsage h s

theorem MapRead.looked (a : MapRead s t) : Looked s t := by
  refine ⟨a.kept, State.entry_of_dir a.dir, fun h => ⟨le_of_eq ?_, List.countP_mono_left fun c _ used => ?_⟩⟩
  · simp only [descUsage, a.links.descs]
  · obtain ⟨d, p, owned, used⟩ := State.cellUsedBy_iff.mp used
    rw [a.links.descs] at used
    exact State.cellUsedBy_iff.mpr ⟨d, p, a.owned owned, used⟩

theorem readEntry_looked {l : LeaseId} (read : readEntry l s = (false, t)) : Looked s t := by
  obtain ⟨at_entry, same, -, -⟩ := readEntry_false read
  have work := readEntry_transferWork l s
  rw [read] at work
  refine ⟨work.storeKept, same, fun h => ⟨le_of_eq ?_, le_of_eq ?_⟩⟩
  · simp only [descUsage, State.desc, at_entry.store]
  · simp only [cellUsage, State.cellUsedBy, State.mapEntry, State.desc, at_entry.store]

theorem RowFrame.after_served (a : Served s t) (same : t.entry 0 = s.entry 0) (b : RowFrame i t u) : RowFrame i s u where
  pending := b.pending.trans a.pending
  presence := b.presence.after a.record a.resetn (fun g => by rw [a.port g]) same
  ports := {
    ok := fun ok => b.ports.ok (a.portsKept (i := i).ok ok)
    view := fun pins g other => (b.ports.view pins g other).trans (a.view g) }
  rings ok := b.rings (a.rings ok)
  settings := {
    ok := fun ok => b.settings.ok (a.settingsKept (i := i).ok ok)
    setting := fun x other => by
      rw [← a.setting] at other
      rw [← same]
      exact b.settings.setting x other
    counts := fun ok fewer => by
      rw [← same]
      refine b.settings.counts (a.settingsKept (i := i).ok ok) ?_
      rw [a.settings]
      exact fewer }

/-- A row after reads. -/
theorem RowOk.after_reads (a : Looked s t) (b : RowOk i t u) : RowOk i s u where
  kept := {
    dir_ok := fun ok => b.kept.dir_ok (a.kept.dir_ok ok)
    payload := fun ok => b.kept.payload (a.kept.payload ok)
    store_ok := fun ok => b.kept.store_ok (a.kept.store_ok ok)
    transit := fun ok carried => b.kept.transit (a.kept.store_ok ok) (a.kept.transit ok carried)
    retired := fun c e => b.kept.retired c (a.kept.retired c e)
    usage := fun ok h => by
      have first := a.usage h
      have second := b.kept.usage (a.kept.store_ok ok) h
      omega
    entries := fun l => (b.kept.entries l).imp id fun law => by
      have same := a.entry l
      have writes : Writes i t l → Writes i s l := fun ⟨h, lease, hi, lo, eq, names, acts⟩ =>
        ⟨h, lease, hi, lo, eq, names, same ▸ acts⟩
      exact ⟨same ▸ law.generation, same ▸ law.exclusive, (same ▸ law.value).imp id writes⟩ }
  frame := b.frame.after_served a.kept.served (a.entry 0)

theorem RowOk.after_mapRead (a : MapRead s t) (b : RowOk i t u) : RowOk i s u := .after_reads a.looked b

theorem Answers.idle : Answers (.next s) (RowOk i s) := .next (Routine.refl s).row

/-! ## The directory's commands -/

theorem takeDirCommand_routine (taken : s.takeDirCommand h k args = some (id, t)) :
    Routine s t ∧ (t.dir.joined.get h).isSome = true := by
  obtain ⟨c, rest, -, -, joined, -, rfl⟩ := takeDirCommand_some taken
  exact ⟨routine_setDirPath .., joined⟩

theorem RowOk.of_dirCommand (taken : s.takeDirCommand h k args = some (id, t))
    (step : (t.dir.joined.get h).isSome = true → ∃ l, LeaseStep l t u) : RowOk i s u := by
  obtain ⟨routine, joined⟩ := takeDirCommand_routine taken
  obtain ⟨l, step⟩ := step joined
  exact .after routine step.row_ok

theorem claim_ok (lease mode wait : Word) : Answers (exec (.claim h lease mode wait) s) (RowOk (.claim h lease mode wait) s) := by
  show Answers (execClaim h lease mode wait s) _
  unfold execClaim
  split
  · next taken => exact .next (.of_dirCommand taken fun joined => claimTaken_step joined ..)
  · exact .idle

theorem release_ok (lease : Word) : Answers (exec (.release h lease) s) (RowOk (.release h lease) s) := by
  show Answers (execRelease h lease s) _
  unfold execRelease
  split
  · next taken => exact .next (.of_dirCommand taken fun joined => atLease_step _ joined fun _ _ _ => releaseEntry_step ..)
  · exact .idle

theorem upgrade_ok (lease wait : Word) : Answers (exec (.upgrade h lease wait) s) (RowOk (.upgrade h lease wait) s) := by
  show Answers (execUpgrade h lease wait s) _
  unfold execUpgrade
  split
  · next taken => exact .next (.of_dirCommand taken fun joined => atLease_step _ joined fun _ _ _ => upgradeEntry_step ..)
  · exact .idle

theorem downgrade_ok (lease : Word) : Answers (exec (.downgrade h lease) s) (RowOk (.downgrade h lease) s) := by
  show Answers (execDowngrade h lease s) _
  unfold execDowngrade
  split
  · next taken => exact .next (.of_dirCommand taken fun joined => atLease_step _ joined fun _ _ _ => downgradeEntry_step ..)
  · exact .idle

theorem cancelWait_ok : Answers (exec (.cancelWait h) s) (RowOk (.cancelWait h) s) := by
  show Answers (execCancelWait h s) _
  unfold execCancelWait
  split
  · next taken => exact .next (.of_dirCommand taken fun _ => cancelWaitTaken_step _)
  · exact .idle

theorem repair_ok (lease : Word) : Answers (exec (.repair h lease) s) (RowOk (.repair h lease) s) := by
  show Answers (execRepair h lease s) _
  unfold execRepair
  split
  · next taken => exact .next (.of_dirCommand taken fun joined => atLease_step _ joined fun _ _ here => repairEntry_step _ here)
  · exact .idle

theorem query_ok (lease : Word) : Answers (exec (.query h lease) s) (RowOk (.query h lease) s) := by
  show Answers (execQuery h lease s) _
  unfold execQuery
  split
  · next taken => exact .next (.of_dirCommand taken fun joined => atLease_step _ joined fun _ _ _ => queryEntry_step ..)
  · exact .idle

theorem parseLease_some {w : Word} {l : LeaseId} (e : parseLease w = some l) : w.toNat = l.val := by
  unfold parseLease at e
  split at e
  · cases e
    rfl
  · cases e

/-- The value written by the acting owner changes nothing else (R39). -/
theorem writeValueEntry_row {l : LeaseId} {lease hi lo : Word} (names : lease.toNat = l.val) (read : readEntry l s = (false, t)) :
    RowOk (.writeValue h lease hi lo) s (writeValueEntry h id hi lo l t) := by
  obtain ⟨at_entry, same, -, ok⟩ := readEntry_false read
  have step : RowOk (.writeValue h lease hi lo) s t := (LeaseStep.of_read_false read (.refl l t)).row_ok
  unfold writeValueEntry
  dsimp only
  split
  · exact step.reply ..
  next acts =>
  split
  · exact step.reply ..
  refine RowOk.reply ?_ ..
  have put := at_entry.put { t.entry l with value := joinWords hi lo }
  refine RowKept.ok (.of_entry put.store put.others (fun k => writeValue_ok (ok k)) (.inr ?_) fun x e => ?_) put.served
  · refine ⟨.inl ?_, fun _ other => ?_, .inr ⟨h, lease, hi, lo, rfl, names, ?_⟩⟩
    · rw [State.putEntry_entry_same, same]
    · rw [State.putEntry_entry_same, same] at other
      rw [State.putEntry_entry_same, same] at *
      exact absurd rfl (other.resolve_left (not_not.mpr ‹_›))
    · rw [← same]
      simpa using acts
  · rw [State.putEntry_entry_same, same] at e
    exact e

theorem writeValue_row_ok (lease hi lo : Word) :
    Answers (exec (.writeValue h lease hi lo) s) (RowOk (.writeValue h lease hi lo) s) := by
  show Answers (execWriteValue h lease hi lo s) _
  unfold execWriteValue
  split
  · next taken =>
    refine .next (.after (takeDirCommand_routine taken).1 ?_)
    unfold atLease
    split
    · exact (routine_reply ..).row
    · next l names =>
      split
      · next read => exact (LeaseStep.of_read_true read).row_ok.reply ..
      · next read => exact writeValueEntry_row (parseLease_some names) read
  · exact .idle

/-! ## The store's commands -/

theorem takeStoreCommand_routine (taken : s.takeStoreCommand h k args = some (id, t)) : Routine s t := by
  obtain ⟨c, rest, -, -, -, rfl⟩ := takeStoreCommand_some taken
  exact routine_setStorePath ..

theorem RowOk.of_storeCommand (taken : s.takeStoreCommand h k args = some (id, t)) (kept : StoreKept t u) : RowOk i s u :=
  .after (takeStoreCommand_routine taken) kept.ok

theorem spaceWait_ok (cells wait : Word) : Answers (exec (.spaceWait h cells wait) s) (RowOk (.spaceWait h cells wait) s) := by
  show Answers (execSpaceWait h cells wait s) _
  unfold execSpaceWait
  split
  · next taken => exact .next (.of_storeCommand taken (spaceWaitTaken_kept ..))
  · exact .idle

theorem spaceCancel_ok : Answers (exec (.spaceCancel h) s) (RowOk (.spaceCancel h) s) := by
  show Answers (execSpaceCancel h s) _
  unfold execSpaceCancel
  split
  · next taken => exact .next (.of_storeCommand taken (spaceCancelTaken_kept ..))
  · exact .idle

theorem beginMessage_ok (a b c e f g x : Word) :
    Answers (exec (.beginMessage h a b c e f g x) s) (RowOk (.beginMessage h a b c e f g x) s) := by
  show Answers (execBegin h a b c e f g x s) _
  unfold execBegin
  split
  · next taken => exact .next (.of_storeCommand taken (beginTaken_kept ..))
  · exact .idle

theorem abandon_ok : Answers (exec (.abandon h) s) (RowOk (.abandon h) s) := by
  show Answers (execAbandon h s) _
  unfold execAbandon
  split
  · next taken => exact .next (.of_storeCommand taken (abandonTaken_kept ..))
  · exact .idle

theorem unwind_ok : Answers (exec (.unwind h) s) (RowOk (.unwind h) s) := by
  show Answers (execUnwind h s) _
  unfold execUnwind
  split
  · next taken => exact .next (.of_storeCommand taken (unwindTaken_kept ..))
  · exact .idle

theorem openMessage_ok : Answers (exec (.openMessage h) s) (RowOk (.openMessage h) s) := by
  show Answers (execOpen h s) _
  unfold execOpen
  split
  · next taken => exact .next (.of_storeCommand taken (openTaken_kept ..))
  · exact .idle

theorem refuse_ok : Answers (exec (.refuse h) s) (RowOk (.refuse h) s) := by
  show Answers (execRefuse h s) _
  unfold execRefuse
  split
  · next taken => exact .next (.of_storeCommand taken (onOpenMessage_kept _ fun msg _ => refuseMessage_kept _ msg))
  · exact .idle

/-! ## COMMIT (R112 to R114) -/

theorem takeTransferCommand_routine (taken : s.takeTransferCommand h k = some (id, t)) :
    Routine s t ∧ (t.dir.joined.get h).isSome = true := by
  obtain ⟨joined, -, taken⟩ := takeTransferCommand_some taken
  have routine := takeStoreCommand_routine taken
  exact ⟨routine, by rwa [routine.objects.dirJoined]⟩

/-- A lease that enters transit in a descriptor that is QUEUED for its recipient (R113). -/
theorem StoreKept.then_startTransit {l : LeaseId} (a : StoreKept s t) (acts : (t.entry l).acts h = true)
    (here : (t.entry l).transit = none) (queued : (t.desc d).state = .queued)
    (carries : (t.desc d).msg.map (fun m => (m.carried, m.dest)) = some (some l, m.dest)) :
    RowOk i s (t.putEntry l { t.entry l with transit := some ⟨d, m.dest⟩, ownerPresent := true }) := by
  have row : RowKept i s t := a.row
  have keeps : (s.entry l).Keeps (t.entry l) := by
    refine (a.entries l).keeps.resolve_left fun rebuilt => ?_
    rw [rebuilt] at acts
    cases acts
  have law : LawfulEntry i s t l := .of_law keeps.law
  refine ⟨⟨fun ok => startTransit_ok (row.dir_ok ok) acts here, row.payload, row.store_ok, fun ok sound l' x e => ?_,
    row.retired, row.usage, fun l' => ?_⟩, (a.served.trans (putEntry_work ..).served).frame⟩
  · rw [State.putEntry_entry] at e
    split at e
    · next same =>
      cases e
      exact ⟨.inl queued, same ▸ carries⟩
    · exact row.transit ok sound l' x e
  · rcases eq_or_ne l l' with rfl | ne
    · refine .inr ⟨?_, ?_, ?_⟩ <;> rw [State.putEntry_entry_same]
      · exact law.generation
      · exact law.exclusive
      · exact law.value
    · have same := State.putEntry_entry_ne t l l' { t.entry l with transit := some ⟨d, m.dest⟩, ownerPresent := true } ne
      refine (row.entries l').imp (fun rebuilt => same.trans rebuilt) fun law => ⟨?_, ?_, ?_⟩ <;> rw [same]
      · exact law.generation
      · exact law.exclusive
      · exact law.value

theorem commitMessage_row (assembling : (s.stream h).assembling = some d) (msg : (s.desc d).msg = some m) :
    RowOk i s (commitMessage h id d m s) := by
  unfold commitMessage
  split
  · exact (routine_reply ..).row
  split
  · exact (routine_reply ..).row
  split
  · exact (routine_reply ..).row
  have cases := commitQuestion_cases h d m s
  generalize commitQuestion h d m s = r at cases ⊢
  obtain ⟨a, t⟩ := r
  rcases cases with ⟨c, passed, work⟩ | ⟨other, work⟩
  · obtain rfl : a = .pass c := passed
    refine RowOk.reply ?_ ..
    cases work with
    | empty _ work =>
      refine (work.storeKept.trans (placeMessage_kept ?_ ?_)).ok
      · rw [State.stream_congr (congrArg (·.streams) work.store), assembling]
      · rw [State.desc_congr (congrArg (·.descs) work.store), msg]
    | lease u l carried work acts here put =>
      have assembling' : (u.stream h).assembling = some d := by
        rw [State.stream_congr (congrArg (·.streams) work.store), assembling]
      have msg' : (u.desc d).msg = some m := by
        rw [State.desc_congr (congrArg (·.descs) work.store), msg]
      have placed := work.storeKept.trans (placeMessage_kept assembling' msg')
      have same : placeMessage h d m t = (placeMessage h d m u).putEntry l
          { (placeMessage h d m u).entry l with transit := some ⟨d, m.dest⟩, ownerPresent := true } := by
        rw [show t = _ from put]
        rfl
      rw [same]
      refine placed.then_startTransit acts here ?_ ?_
      · rw [placeMessage_desc, if_pos rfl]
      · rw [placeMessage_desc, if_pos rfl]
        show (u.desc d).msg.map _ = _
        rw [msg', Option.map_some, carried]
  · have row : RowOk i s t := work.storeKept.ok
    cases a with
    | pass c => exact absurd rfl (other c)
    | damaged => exact row.reply ..
    | stale l g held => exact row.reply ..
    | notHolder l => exact row.reply ..
    | inTransit l => exact row.reply ..

theorem commitTaken_row : RowOk i s (commitTaken h id s) := by
  unfold commitTaken
  split
  · exact (routine_reply ..).row
  next d assembling =>
  have upkeep := readDesc_upkeep d s
  rcases read : readDesc d s with ⟨_ | _, t⟩
  · have same := readDesc_false read
    dsimp only
    split
    · exact .after_mapRead same (routine_reply ..).row
    · next m msg =>
      refine .after_mapRead same (commitMessage_row ?_ msg)
      rw [State.stream_congr same.links.streams, assembling]
  · rw [read] at upkeep
    exact upkeep.kept.ok.reply ..

theorem commit_ok : Answers (exec (.commit h) s) (RowOk (.commit h) s) := by
  show Answers (execCommit h s) _
  unfold execCommit
  split
  · next taken => exact .next (.after (takeTransferCommand_routine taken).1 commitTaken_row)
  · exact .idle

/-! ## ACCEPT (R123, R129) -/

theorem completeEntry_transit (l : LeaseId) (h : HostId) (s : State) : ((completeEntry l h s).2.entry l).transit = none := by
  unfold completeEntry
  dsimp only
  split
  · rw [State.offerDir_entry, State.clear_entry, State.putEntry_entry_same]
  · rw [State.clear_entry, State.putEntry_entry_same]

/-- A message that names a lease carries none once that lease's transit is ended. -/
theorem empty_of_no_transit {l : LeaseId} (msg : (t.desc d).msg = some m) (names : m.carried = some l)
    (ended : (t.entry l).transit = none) (sound : TransitOk t) (l' : LeaseId) : (t.entry l').carriedIn d = false := by
  rw [Bool.eq_false_iff]
  intro carried
  have same := (sound.carried_of_carriedIn msg carried).symm.trans names
  rw [Option.some.inj same, LeaseEntry.carriedIn, ended] at carried
  cases carried

theorem acceptMessage_row (joined : (s.dir.joined.get h).isSome = true) (msg : (s.desc d).msg = some m) :
    RowOk i s (acceptMessage h id d m s) := by
  unfold acceptMessage
  split
  · next none =>
    refine (finishAccept_kept _ _ _ _ _ fun _ sound l => ?_).ok
    rw [Bool.eq_false_iff]
    intro carried
    rw [sound.carried_of_carriedIn msg carried] at none
    cases none
  next l names =>
  have work := readEntry_transferWork l s
  unfold transferAccepted
  rcases read : readEntry l s with ⟨_ | _, t⟩
  · rw [read] at work
    have msg' : (t.desc d).msg = some m := by rw [State.desc_congr (congrArg (·.descs) work.store), msg]
    dsimp only
    by_cases carried : (t.entry l).carriedIn d = true
    · rw [if_pos carried]
      have step := completeEntry_step (l := l) (s := t) (h := h) (by rw [work.served.dirJoined, joined])
        (LeaseEntry.transit_of_carriedIn carried)
      have ended := completeEntry_transit l h t
      have done : ∃ g v w, (completeEntry l h t).1 = .completed g v w := ⟨_, _, _, rfl⟩
      generalize completeEntry l h t = r at step ended done
      obtain ⟨a, u⟩ := r
      obtain ⟨g, v, w, rfl⟩ := done
      have lease := LeaseStep.of_read_false read step
      have freed : StoreKept u (finishAccept h id d (some l) g v w u) := finishAccept_kept _ _ _ _ _ fun _ sound =>
        empty_of_no_transit (by rw [State.desc_congr (congrArg (·.descs) step.at_entry.store), msg']) names ended sound
      exact (lease.row.then_store ended lease.at_entry.others freed).ok (lease.at_entry.served.trans freed.served)
    · rw [if_neg carried]
      refine (work.storeKept.trans (finishAccept_kept _ _ _ _ _ fun _ sound l' => ?_)).ok
      exact empty_of_damaged (.refl t) msg' names (by simpa using carried) sound l'
  · obtain ⟨-, rebuilt, -⟩ := readEntry_true read
    rw [read] at work
    refine RowOk.reply (work.storeKept.then_clearCarried ?_ fun _ sound => ?_).ok ..
    · rw [State.desc_congr (congrArg (·.descs) work.store), msg]
    · exact empty_of_damaged work msg names (by rw [rebuilt]; rfl) sound

theorem accept_ok : Answers (exec (.accept h) s) (RowOk (.accept h) s) := by
  show Answers (execAccept h s) _
  unfold execAccept
  split
  · next taken =>
    obtain ⟨routine, joined⟩ := takeTransferCommand_routine taken
    refine .next (.after routine ?_)
    unfold onOpenMessage
    split
    · exact (routine_reply ..).row
    next d _ =>
    rename_i t _ _
    have upkeep := readDesc_upkeep d t
    rcases read : readDesc d t with ⟨_ | _, u⟩
    · have same := readDesc_false read
      dsimp only
      split
      · exact .after_mapRead same (routine_reply ..).row
      · next m msg => exact .after_mapRead same (acceptMessage_row (by rw [same.served.dirJoined, joined]) msg)
    · rw [read] at upkeep
      exact upkeep.kept.ok.reply ..
  · exact .idle

end

end Sys2Proof.Machine
end

section
/-! PROOF. The rows of the directory, the store and the notice unit that are no commands: expiries, joins, departures,
the store's change of a setting, and the notices. -/

namespace Sys2Proof.Machine

open Sys2Proof

/-- Nothing that presence, windows, rings, settings or time base keep has changed. -/
structure Aside (s t : State) : Prop where
  pending : t.pending = s.pending
  presence : t.presence = s.presence
  resetn : t.resetn = s.resetn
  port : ∀ g, t.port g = { s.port g with replies := (t.port g).replies }
  notice : t.notice = { s.notice with offers := t.notice.offers, path := t.notice.path }
  settings : t.settings = { s.settings with
    correctedDue := t.settings.correctedDue, uncorrectedDue := t.settings.uncorrectedDue, path := t.settings.path }
  timeBase : t.timeBase = s.timeBase
  descQuota : t.store.descQuota = s.store.descQuota
  cellQuota : t.store.cellQuota = s.store.cellQuota
  inboundLimit : t.store.inboundLimit = s.store.inboundLimit
  changes : t.store.changes = s.store.changes

section
variable {i : Instr} {s t u : State} {h : HostId} {l : LeaseId}

theorem Served.aside (a : Served s t) : Aside s t :=
  ⟨a.pending, a.presence, a.resetn, a.port, a.notice, a.settings, a.timeBase, a.descQuota, a.cellQuota, a.inboundLimit,
    a.changes⟩

theorem Aside.refl (s : State) : Aside s s := (Served.refl s).aside

theorem Aside.trans (a : Aside s t) (b : Aside t u) : Aside s u where
  pending := b.pending.trans a.pending
  presence := b.presence.trans a.presence
  resetn := b.resetn.trans a.resetn
  port g := (b.port g).trans (by rw [a.port g])
  notice := b.notice.trans (by rw [a.notice])
  settings := b.settings.trans (by rw [a.settings])
  timeBase := b.timeBase.trans a.timeBase
  descQuota := b.descQuota.trans a.descQuota
  cellQuota := b.cellQuota.trans a.cellQuota
  inboundLimit := b.inboundLimit.trans a.inboundLimit
  changes := b.changes.trans a.changes

theorem Aside.setting (a : Aside s t) (x : Setting) : t.setting x = s.setting x := by
  unfold State.setting
  rw [a.settings]

theorem Aside.frame (a : Aside s t) : RowFrame i s t where
  pending := a.pending
  presence := .of_same (State.record_congr a.presence) a.resetn fun g => by rw [a.port g]
  ports := .of_views fun g => by rw [a.port g]; rfl
  rings ok g := by
    rw [State.ring, State.lost, a.notice]
    exact ok g
  settings := .of_same a.setting (by rw [a.settings]) (by rw [a.settings])
    a.timeBase a.descQuota a.cellQuota a.inboundLimit a.changes

/-! ## Expiries (R46, R53, R96, R97) -/

theorem claimWaitExpiry_ok : Answers (exec (.claimWaitExpiry h) s) (RowOk (.claimWaitExpiry h) s) := by
  show Answers (execClaimWaitExpiry h s) _
  unfold execClaimWaitExpiry
  split
  · next wait =>
    split
    · exact .next (expireWait_step wait).row_ok
    · exact .idle
  · exact .idle

theorem upgradeWaitExpiry_ok : Answers (exec (.upgradeWaitExpiry h) s) (RowOk (.upgradeWaitExpiry h) s) := by
  show Answers (execUpgradeWaitExpiry h s) _
  unfold execUpgradeWaitExpiry
  split
  · next wait =>
    split
    · exact .next (expireWait_step wait).row_ok
    · exact .idle
  · exact .idle

theorem spaceWaitExpiry_ok : Answers (exec (.spaceWaitExpiry h) s) (RowOk (.spaceWaitExpiry h) s) := by
  show Answers (execSpaceWaitExpiry h s) _
  unfold execSpaceWaitExpiry
  split
  · next space => exact .next (expireSpaceWait_scan_kept space).ok
  · exact .idle

theorem reservationLapse_ok : Answers (exec (.reservationLapse h) s) (RowOk (.reservationLapse h) s) := by
  show Answers (execReservationLapse h s) _
  unfold execReservationLapse
  split
  · next space => exact .next (lapse_kept _ space).ok
  · exact .idle

/-! ## Joins (R6) -/

theorem directoryJoin_row_ok : Answers (exec (.directoryJoin h) s) (RowOk (.directoryJoin h) s) := by
  show Answers (execDirectoryJoin h s) _
  unfold execDirectoryJoin
  split
  · split
    · refine .next ⟨.of_entry (l := 0) rfl (fun _ _ => rfl) directoryJoin_ok (.inr (.of_same rfl)) fun _ => id, ?_⟩
      exact Aside.frame (by constructor <;> intros <;> rfl)
    · exact .idle
  · exact .idle

theorem storeJoin_ok : Answers (exec (.storeJoin h) s) (RowOk (.storeJoin h) s) := by
  show Answers (execStoreJoin h s) _
  unfold execStoreJoin
  split
  · split
    · exact .next ⟨SameObjects.row ⟨rfl, rfl, rfl, rfl, rfl⟩, Aside.frame (by constructor <;> intros <;> rfl)⟩
    · exact .idle
  · exact .idle

theorem noticeUnitJoin_ok : Answers (exec (.noticeUnitJoin h) s) (RowOk (.noticeUnitJoin h) s) := by
  show Answers (execNoticeUnitJoin h s) _
  unfold execNoticeUnitJoin
  split
  · split
    · refine .next ⟨SameObjects.row (.of_blocks rfl rfl), rfl, .of_same (fun _ => rfl) rfl fun _ => rfl,
        .of_views fun _ => rfl, id, .of_same (fun _ => rfl) rfl rfl rfl rfl rfl rfl rfl⟩
    · exact .idle
  · exact .idle

/-! ## The directory's part of a departure (R64) -/

/-- Steps of the directory at these leases. -/
structure LeasesStep (ls : List LeaseId) (s t : State) : Prop where
  aside : Aside s t
  store : t.store = s.store
  others : ∀ l, l ∉ ls → t.entry l = s.entry l
  law : ∀ l, t.entry l = LeaseEntry.rebuilt ∨ (s.entry l).Law (t.entry l)
  ok : DirectoryOk s → DirectoryOk t

theorem LeasesStep.refl (ls : List LeaseId) (s : State) : LeasesStep ls s s :=
  ⟨.refl s, rfl, fun _ _ => rfl, fun _ => .inr (LeaseEntry.Keeps.refl _).law, id⟩

theorem LeasesStep.trans {ls ms : List LeaseId} (a : LeasesStep ls s t) (b : LeasesStep ms t u) (apart : ∀ l ∈ ls, l ∉ ms) :
    LeasesStep (ls ++ ms) s u where
  aside := a.aside.trans b.aside
  store := b.store.trans a.store
  others l out := by
    rw [List.mem_append, not_or] at out
    exact (b.others l out.2).trans (a.others l out.1)
  law l := by
    by_cases mem : l ∈ ls
    · rw [b.others l (apart l mem)]
      exact a.law l
    · rw [← a.others l mem]
      exact b.law l
  ok k := b.ok (a.ok k)

theorem LeasesStep.row_ok {ls : List LeaseId} (a : LeasesStep ls s t) : RowOk i s t where
  kept := {
    dir_ok := a.ok
    payload := fun ok => by rwa [PayloadOk, a.store]
    store_ok := fun ok => ok.of_store a.store
    transit := fun _ ok => ok.update (fun l x e => by
        rcases a.law l with rebuilt | law
        · rw [rebuilt] at e
          cases e
        · exact law.transit x e) fun _ x _ => by
      rw [State.desc, State.desc, a.store]
      exact .refl _
    retired := fun c e => by rwa [State.mapEntry, a.store]
    usage := fun _ h => by
      refine ⟨le_max_of_le_left (le_of_eq ?_), le_max_of_le_left (le_of_eq ?_)⟩
      · simp only [descUsage, State.desc, a.store]
      · simp only [cellUsage, State.cellUsedBy, State.mapEntry, State.desc, a.store]
    entries := fun l => (a.law l).imp id .of_law }
  frame := a.aside.frame

theorem departLease_leasesStep (h : HostId) (l : LeaseId) (s : State) : LeasesStep [l] s (departLease h l s) := by
  have ok := departLease_ok (h := h) (l := l) (s := s)
  rcases departLease_cases h l s with same | ⟨p, -, -, done⟩
  · rw [same]
    exact .refl _ s
  · have step := departAtLease_step h l s
    rw [done] at ok ⊢
    refine ⟨step.at_entry.served.aside.trans (by constructor <;> intros <;> rfl), step.at_entry.store, fun l' out => ?_,
      fun l' => ?_, ok⟩
    · exact step.at_entry.others l' fun e => out (e ▸ List.mem_singleton_self l)
    · rcases eq_or_ne l' l with rfl | ne
      · exact step.law
      · have same : ((departAtLease h l s).leaseDone h p l).entry l' = s.entry l' := step.at_entry.others l' ne
        rw [same]
        exact .inr (LeaseEntry.Keeps.refl _).law

theorem foldl_departLease_leasesStep (h : HostId) {ls : List LeaseId} (nodup : ls.Nodup) (s : State) :
    LeasesStep ls s (ls.foldl (fun s l => departLease h l s) s) := by
  induction ls generalizing s with
  | nil => exact .refl _ s
  | cons l ls ih =>
    obtain ⟨out, nodup⟩ := List.nodup_cons.mp nodup
    refine (departLease_leasesStep h l s).trans (ih nodup _) fun l' mem => ?_
    rwa [List.mem_singleton.mp mem]

theorem startDeparture_leasesStep (h : HostId) (s : State) : LeasesStep [] s ((startDeparture h s).getD s) := by
  cases start : startDeparture h s with
  | none => exact .refl _ s
  | some t =>
    have ok := fun k => startDeparture_ok k start
    obtain ⟨c, k, rest, -, -, started⟩ := startDeparture_some start
    rw [Option.getD_some]
    rw [started] at ok ⊢
    exact ⟨by constructor <;> intros <;> rfl, rfl, fun _ _ => rfl, fun _ => .inr (LeaseEntry.Keeps.refl _).law, ok⟩

theorem directoryDeparture_ok (part : DeparturePart) :
    Answers (exec (.directoryDeparture h part) s) (RowOk (.directoryDeparture h part) s) := by
  show Answers (execDirectoryDeparture h part s) _
  have start := startDeparture_leasesStep h s
  cases part with
  | start => exact .next start.row_ok
  | atLease l => exact .next (departLease_leasesStep h l s).row_ok
  | whole => exact .next (start.trans (foldl_departLease_leasesStep h (List.nodup_finRange 64) _) nofun).row_ok

/-! ## The store's part of a departure (R101) -/

theorem storeDeparture_ok : Answers (exec (.storeDeparture h) s) (RowOk (.storeDeparture h) s) := by
  show Answers (execStoreDeparture h s) _
  unfold execStoreDeparture
  split
  · next rest _ =>
    split
    · refine .next (.after (routine_setStorePath s rest) ?_)
      have out : Aside (s.setStorePath rest) ((s.setStorePath rest).countedOut h) := by constructor <;> intros <;> rfl
      have kept := departStore_kept h (s.setStorePath rest)
      exact ⟨.after (countedOut_objects h _) kept.row, (out.trans kept.served.aside).frame⟩
    · exact .idle
  · exact .idle

/-! ## Settings at the store (R148) -/

theorem RowFrame.then_aside (b : RowFrame i s t) (a : Aside t u) : RowFrame i s u where
  pending := a.pending.trans b.pending
  presence := {
    ok := fun ok => (a.frame (i := i)).presence.ok (b.presence.ok ok)
    fence := fun g evicted => b.presence.fence g (by rwa [State.record_congr a.presence] at evicted)
    session := fun g other => b.presence.session g (by rwa [State.record_congr a.presence] at other) }
  ports := {
    ok := fun ok => (a.frame (i := i)).ports.ok (b.ports.ok ok)
    view := fun pins g other => by
      rw [a.port g]
      exact b.ports.view pins g other }
  rings ok := (a.frame (i := i)).rings (b.rings ok)
  settings := {
    ok := fun ok => (a.frame (i := i)).settings.ok (b.settings.ok ok)
    setting := fun x other => b.settings.setting x (by
      rwa [a.setting] at other)
    counts := fun ok fewer => b.settings.counts ok (by rwa [a.settings] at fewer) }

theorem applySetting_objects (x : Setting) (v : Nat) (s : State) : SameObjects s (applySetting x v s) := by
  cases x <;> exact ⟨rfl, rfl, rfl, rfl, rfl⟩

/-- The store without the oldest change, which it has applied. -/
def State.changeApplied (s : State) (c : SettingChange) (rest : List SettingChange) : State :=
  applySetting c.setting c.value { s with store := { s.store with changes := rest } }

theorem changeApplied_settings_ok {c : SettingChange} {rest : List SettingChange} (changes : s.store.changes = c :: rest)
    (ok : SettingsOk s) : SettingsOk (s.changeApplied c rest) := by
  obtain ⟨settings, desc, cell, inbound, changed, ok⟩ := ok
  rw [changes, List.forall_mem_cons] at changed
  obtain ⟨x, old, v, g, id⟩ := c
  obtain ⟨here, changed⟩ := changed
  cases x with
  | descQuota => exact ⟨settings, here, cell, inbound, changed, ok⟩
  | cellQuota => exact ⟨settings, desc, here, inbound, changed, ok⟩
  | inboundLimit => exact ⟨settings, desc, cell, here, changed, ok⟩
  | tickDiv => exact ⟨settings, desc, cell, inbound, changed, ok⟩
  | presenceTerm => exact ⟨settings, desc, cell, inbound, changed, ok⟩
  | spaceHold => exact ⟨settings, desc, cell, inbound, changed, ok⟩

theorem changeApplied_frame {c : SettingChange} {rest : List SettingChange} (changes : s.store.changes = c :: rest) :
    RowFrame i s (s.changeApplied c rest) where
  pending := rfl
  presence := .of_same (fun _ => rfl) rfl fun _ => rfl
  ports := .of_views fun _ => rfl
  rings := id
  settings := ⟨changeApplied_settings_ok changes, fun _ other => absurd rfl other, fun _ fewer =>
    absurd fewer (by simp [State.changeApplied, applySetting])⟩

theorem storeSettingChange_ok : Answers (exec .storeSettingChange s) (RowOk .storeSettingChange s) := by
  show Answers (execStoreSettingChange s) _
  unfold execStoreSettingChange
  split
  · exact .idle
  · next c rest changes =>
    refine .next (RowOk.reply ?_ ..)
    have objects : SameObjects s (s.changeApplied c rest) :=
      SameObjects.trans (t := { s with store := { s.store with changes := rest } }) ⟨rfl, rfl, rfl, rfl, rfl⟩
        (applySetting_objects c.setting c.value _)
    have kept : StoreKept (s.changeApplied c rest)
        (if c.setting.isQuota then (spaceScan (s.changeApplied c rest)).1 else s.changeApplied c rest) := by
      split
      · exact (spaceScan_upkeep _).kept
      · exact .refl _
    exact ⟨.after objects kept.row, (changeApplied_frame changes).then_aside kept.served.aside⟩

/-! ## The notice unit (R137 to R139) -/

/-- A change of the rings alone. -/
theorem RowOk.of_rings (presence : t.presence = s.presence) (ports : t.ports = s.ports) (dir : t.dir = s.dir)
    (store : t.store = s.store) (settings : t.settings = s.settings) (timeBase : t.timeBase = s.timeBase)
    (resetn : t.resetn = s.resetn) (pending : t.pending = s.pending) (rings : RingsOk s → RingsOk t) : RowOk i s t where
  kept := SameObjects.row (.of_blocks dir store)
  frame := {
    pending := pending
    presence := .of_same (State.record_congr presence) resetn fun g => by rw [State.port_congr ports]
    ports := .of_views fun g => by rw [State.port_congr ports]
    rings := rings
    settings := .of_same (fun _ => by unfold State.setting; rw [settings]) (by rw [settings]) (by rw [settings]) timeBase
      (by rw [store]) (by rw [store]) (by rw [store]) (by rw [store]) }

theorem noticeUnitDeparture_ok : Answers (exec (.noticeUnitDeparture h) s) (RowOk (.noticeUnitDeparture h) s) := by
  show Answers (execNoticeUnitDeparture h s) _
  unfold execNoticeUnitDeparture
  split
  · split
    · refine .next (.of_rings rfl rfl rfl rfl rfl rfl rfl rfl fun ok g => ?_)
      rcases eq_or_ne h g with rfl | ne
      · simp [State.ring, State.lost]
      · rw [State.ring, State.lost, upd_get_ne _ _ ne, upd_get_ne _ _ ne]
        exact ok g
    · exact .idle
  · exact .idle

theorem nextNoticeTaken_row (id : Nat) : RowOk i s (nextNoticeTaken h id s) := by
  unfold nextNoticeTaken
  dsimp only
  split
  · refine RowOk.reply ?_ ..
    refine .of_rings rfl rfl rfl rfl rfl rfl rfl rfl fun ok g => ?_
    refine ⟨(ok g).1, ?_⟩
    rcases eq_or_ne h g with rfl | ne
    · simp [State.lost]
    · rw [State.lost, upd_get_ne _ _ ne]
      exact (ok g).2
  · next n rest ring =>
    refine RowOk.reply ?_ ..
    refine .of_rings rfl rfl rfl rfl rfl rfl rfl rfl fun ok g => ?_
    rcases eq_or_ne h g with rfl | ne
    · have := (ok h).1
      rw [ring, List.length_cons] at this
      simp only [State.ring, State.lost, upd_get_same]
      omega
    · rw [State.ring, State.lost, upd_get_ne _ _ ne, upd_get_ne _ _ ne]
      exact ok g

theorem nextNotice_ok : Answers (exec (.nextNotice h) s) (RowOk (.nextNotice h) s) := by
  show Answers (execNextNotice h s) _
  unfold execNextNotice
  split
  · next taken =>
    obtain ⟨c, rest, -, -, -, eq⟩ := takeNoticeCommand_some taken
    refine .next (.after ?_ (nextNoticeTaken_row _))
    rw [eq]
    exact routine_setNoticePath ..
  · exact .idle

theorem takeOffer_row (o : Offer) : RowOk i s (takeOffer h o s) := by
  unfold takeOffer
  split
  · exact (Routine.refl s).row
  split
  · next short =>
    refine .of_rings rfl rfl rfl rfl rfl rfl rfl rfl fun ok g => ⟨?_, (ok g).2⟩
    rcases eq_or_ne h g with rfl | ne
    · simp only [State.ring, upd_get_same, List.length_append, List.length_singleton]
      exact short
    · rw [State.ring, upd_get_ne _ _ ne]
      exact (ok g).1
  · refine .of_rings rfl rfl rfl rfl rfl rfl rfl rfl fun ok g => ⟨(ok g).1, ?_⟩
    rcases eq_or_ne h g with rfl | ne
    · simp only [State.lost, upd_get_same]
      exact min_le_left ..
    · rw [State.lost, upd_get_ne _ _ ne]
      exact (ok g).2

theorem noticeOffer_ok (k : Nat) : Answers (exec (.noticeOffer h k) s) (RowOk (.noticeOffer h k) s) := by
  show Answers (execNoticeOffer h k s) _
  unfold execNoticeOffer
  split
  · exact .idle
  · refine .next (RowOk.after ?_ (takeOffer_row _))
    exact Served.routine (by constructor <;> intros <;> rfl) (.of_blocks rfl rfl)

end

end Sys2Proof.Machine
end

section
/-! PROOF. The rows of the time base, the settings block, the presence unit and the ports, and the resets but the assertion
of RESETn. -/

namespace Sys2Proof.Machine

open Sys2Proof

section
variable {i : Instr} {s t u : State} {h : HostId} {id : Nat}

/-! ## Ticks (R146) -/

theorem vector_get_map {α β : Type} {n : Nat} (v : Vector α n) (f : α → β) (k : Fin n) : (v.map f).get k = f (v.get k) :=
  Vector.getElem_map ..

theorem PresenceRecord.tick_ok {r : PresenceRecord} (ok : r.Ok) : r.tick.Ok := by
  unfold PresenceRecord.tick
  split
  · obtain ⟨session, positive, term, fence⟩ := ok
    exact ⟨session, positive, by simpa [lower] using term, fence⟩
  · exact ok

theorem PresenceRecord.tick_state (r : PresenceRecord) : r.tick.state = r.state := by
  unfold PresenceRecord.tick
  split <;> rfl

theorem PresenceRecord.tick_fence (r : PresenceRecord) : r.tick.fence = r.fence := by
  unfold PresenceRecord.tick
  split <;> rfl

theorem PresenceRecord.tick_session (r : PresenceRecord) : r.tick.session = r.session := by
  unfold PresenceRecord.tick
  split <;> rfl

theorem presenceTick_row : RowOk i s (presenceTick s) := by
  unfold presenceTick
  split
  · exact (Routine.refl s).row
  refine ⟨SameObjects.row (.of_blocks rfl rfl), rfl, ?_, .of_views fun _ => rfl, id,
    .of_same (fun _ => rfl) rfl rfl rfl rfl rfl rfl rfl⟩
  have record : ∀ g, ({ s with presence := { s.presence with
      records := s.presence.records.map PresenceRecord.tick, ticks := s.presence.ticks - 1 } } : State).record g
      = (s.record g).tick := fun g => vector_get_map _ _ _
  refine ⟨fun ok g => ?_, fun g evicted other => ?_, fun g other => ?_⟩
  · rw [record, PresenceRecord.tick_state]
    exact ⟨PresenceRecord.tick_ok (ok g).1, (ok g).2⟩
  · rw [record, PresenceRecord.tick_fence] at evicted
    exact absurd evicted other
  · rw [record, PresenceRecord.tick_session] at other
    exact absurd rfl other

theorem directoryTick_row : RowOk i s (directoryTick s) := by
  unfold directoryTick
  split
  · exact (Routine.refl s).row
  refine ⟨.of_entry (l := 0) rfl (fun _ _ => rfl) (fun ok => ok.congr (fun _ => rfl) (fun g => ?_) rfl rfl)
    (.inr (.of_same rfl)) fun _ e => e, Aside.frame (by constructor <;> intros <;> rfl)⟩
  rw [State.waitKey, State.wait, vector_get_map, State.waitKey, State.wait, Option.map_map]
  rfl

theorem SpaceRecord.tick_waiting (r : SpaceRecord) : (∃ n k, r.tick = .waiting n k) ↔ ∃ n k, r = .waiting n k := by
  cases r <;> simp [SpaceRecord.tick]

theorem SpaceRecord.tick_reserved (r : SpaceRecord) (d : DescId) : (∃ k, r.tick = .reserved d k) ↔ ∃ k, r = .reserved d k := by
  cases r <;> simp [SpaceRecord.tick]

/-- The store with its space waits and holds lowered. -/
def State.spaceTicked (s : State) : State :=
  { s with store := { s.store with space := s.store.space.map SpaceRecord.tick, ticks := s.store.ticks - 1 } }

theorem spaceTicked_store_ok (ok : StoreOk s) : StoreOk s.spaceTicked := by
  obtain ⟨cells, ⟨nodup, waiting, reserved, links⟩, positions⟩ := ok
  have space : ∀ g, s.spaceTicked.space g = (s.space g).tick := fun g => vector_get_map _ _ _
  refine ⟨cells, ⟨nodup, fun g => ?_, fun g d => ?_, links⟩, positions⟩
  · rw [space, SpaceRecord.tick_waiting]
    exact waiting g
  · rw [space, SpaceRecord.tick_reserved]
    exact reserved g d

theorem storeTick_row : RowOk i s (storeTick s) := by
  unfold storeTick
  split
  · exact (Routine.refl s).row
  · exact ⟨⟨fun ok => ok.of_dir rfl, fun ok => ok, spaceTicked_store_ok, fun _ ok => ok, fun _ e => e,
      fun _ _ => ⟨le_max_left .., le_max_left ..⟩, fun _ => .inr (.of_same rfl)⟩, Aside.frame (by constructor <;> intros <;> rfl)⟩

theorem TimeBase.advance_ok (b : TimeBase) {tickDiv : Nat} (n : Nat) (setting : Setting.inRange .tickDiv tickDiv)
    (divider : Setting.inRange .tickDiv b.divider) :
    Setting.inRange .tickDiv (b.advance tickDiv n).1.divider ∧ (b.advance tickDiv n).1.count < (b.advance tickDiv n).1.divider := by
  unfold TimeBase.advance
  split
  · next short => exact ⟨divider, short⟩
  · exact ⟨setting, Nat.mod_lt _ (lt_of_lt_of_le (by decide) setting.1)⟩

theorem clkinPeriods_row (n : Nat) : RowOk i s (clkinPeriods n s) := by
  unfold clkinPeriods
  split
  · exact (Routine.refl s).row
  refine ⟨SameObjects.row ⟨rfl, rfl, rfl, rfl, rfl⟩, rfl, .of_same (fun _ => rfl) rfl fun _ => rfl, .of_views fun _ => rfl,
    fun ok => ok, ?_⟩
  refine ⟨fun ok => ?_, fun _ other => absurd rfl other, fun _ fewer => absurd fewer (by simp)⟩
  obtain ⟨settings, desc, cell, inbound, changed, corrected, uncorrected, divider, -⟩ := ok
  exact ⟨settings, desc, cell, inbound, changed, corrected, uncorrected,
    TimeBase.advance_ok s.timeBase n (settings .tickDiv) divider⟩

theorem tick_ok (part : TickPart) : Answers (exec (.tick part) s) (RowOk (.tick part) s) := by
  cases part with
  | clkin n => exact .next (clkinPeriods_row n)
  | presenceUnit => exact .next presenceTick_row
  | directory => exact .next directoryTick_row
  | store => exact .next storeTick_row

/-! ## The settings block -/

theorem takeSettingsCommand_routine {k : CommandKind} {args : List Word}
    (taken : s.takeSettingsCommand h k args = some (id, t)) : Routine s t := by
  obtain ⟨c, rest, -, -, -, rfl⟩ := takeSettingsCommand_some taken
  exact routine_setSettingsPath ..

theorem charterCheck_cases (h : HostId) (s : State) : (∃ t, charterCheck h s = (.damaged, t) ∧ StoreKept s t)
    ∨ (∃ t, charterCheck h s = (.fail, t) ∧ Looked s t)
    ∨ ∃ t, charterCheck h s = (.pass, t) ∧ Looked s t ∧ (t.entry 0).acts h = true := by
  have work := readEntry_transferWork 0 s
  unfold charterCheck
  rcases read : readEntry 0 s with ⟨_ | _, t⟩
  · by_cases acts : (t.entry 0).acts h = true
    · exact .inr (.inr ⟨t, by simp [acts], readEntry_looked read, acts⟩)
    · exact .inr (.inl ⟨t, by simp [acts], readEntry_looked read⟩)
  · rw [read] at work
    exact .inl ⟨t, rfl, work.storeKept⟩

/-- A row changes the settings, the counts or the time base, and the store's changes, alone. -/
theorem RowOk.of_settings (presence : t.presence = s.presence) (ports : t.ports = s.ports) (dir : t.dir = s.dir)
    (store : t.store = { s.store with changes := t.store.changes }) (notice : t.notice = s.notice) (resetn : t.resetn = s.resetn)
    (pending : t.pending = s.pending) (settings : SettingsKept i s t) : RowOk i s t where
  kept := SameObjects.row ⟨by rw [dir], by rw [dir], by rw [dir], by rw [dir], by rw [store]⟩
  frame := {
    pending := pending
    presence := .of_same (State.record_congr presence) resetn fun g => by rw [State.port_congr ports]
    ports := .of_views fun g => by rw [State.port_congr ports]
    rings := fun ok g => by
      rw [State.ring, State.lost, notice]
      exact ok g
    settings := settings }

theorem State.setSetting_setting (s : State) (x y : Setting) (v : Nat) :
    (s.setSetting x v).setting y = if x = y then v else s.setting y := by
  cases x <;> cases y <;> rfl

theorem parseSetting_row {x : Setting} {param value : Word} (range : x.inRange value.toNat) (acts : (s.entry 0).acts h = true) :
    RowOk (.setParam h param value) s (changeSetting h id x value.toNat s) := by
  have counts : (s.setSetting x value.toNat).settings.corrected = s.settings.corrected
      ∧ (s.setSetting x value.toNat).settings.uncorrected = s.settings.uncorrected := by
    cases x <;> exact ⟨rfl, rfl⟩
  have ok (k : SettingsOk s) : SettingsOk (s.setSetting x value.toNat) := by
    obtain ⟨settings, rest⟩ := k
    refine ⟨fun y => ?_, ?_⟩
    · rw [State.setSetting_setting]
      split
      · next e => exact e ▸ range
      · exact settings y
    · rw [counts.1, counts.2]
      exact rest
  unfold changeSetting
  dsimp only
  split
  · refine .of_settings rfl rfl rfl rfl rfl rfl rfl ⟨fun k => ?_, fun _ _ => ⟨h, param, value, rfl, acts⟩, fun _ fewer => ?_⟩
    · obtain ⟨settings, desc, cell, inbound, changed, rest⟩ := ok k
      refine ⟨settings, desc, cell, inbound, fun c mem => ?_, rest⟩
      rcases List.mem_append.mp mem with old | new
      · exact changed c old
      · rw [List.mem_singleton.mp new]
        exact range
    · rw [counts.1, counts.2] at fewer
      omega
  · refine RowOk.reply ?_ ..
    refine .of_settings rfl rfl rfl rfl rfl rfl rfl ⟨ok, fun _ _ => ⟨h, param, value, rfl, acts⟩, fun _ fewer => ?_⟩
    rw [counts.1, counts.2] at fewer
    omega

theorem setParam_ok (param value : Word) : Answers (exec (.setParam h param value) s) (RowOk (.setParam h param value) s) := by
  show Answers (execSetParam h param value s) _
  unfold execSetParam
  split
  · next id t taken =>
    refine .next (.after (takeSettingsCommand_routine taken) ?_)
    unfold setParamTaken
    rcases charterCheck_cases h t with ⟨u, r, kept⟩ | ⟨u, r, looked⟩ | ⟨u, r, looked, acts⟩ <;> rw [r] <;> dsimp only
    · exact kept.ok.reply ..
    · exact .after_reads looked (routine_reply ..).row
    · refine .after_reads looked ?_
      split
      · exact (routine_reply ..).row
      · split
        · exact (routine_reply ..).row
        · next range =>
          rw [not_or, not_lt, not_lt] at range
          exact parseSetting_row range acts
  · exact .idle

theorem readParam_ok (param : Word) : Answers (exec (.readParam h param) s) (RowOk (.readParam h param) s) := by
  show Answers (execReadParam h param s) _
  unfold execReadParam
  split
  · next taken =>
    refine .next (.after (takeSettingsCommand_routine taken) ?_)
    unfold readParamTaken
    split <;> exact (routine_reply ..).row
  · exact .idle

theorem deviceStatus_ok : Answers (exec (.deviceStatus h) s) (RowOk (.deviceStatus h) s) := by
  show Answers (execDeviceStatus h s) _
  unfold execDeviceStatus
  split
  · next taken => exact .next (.after (takeSettingsCommand_routine taken) ((readMap_mapRead _).kept.ok.reply ..))
  · exact .idle

theorem clearCounts_ok : Answers (exec (.clearCounts h) s) (RowOk (.clearCounts h) s) := by
  show Answers (execClearCounts h s) _
  unfold execClearCounts
  split
  · next id t taken =>
    refine .next (.after (takeSettingsCommand_routine taken) ?_)
    unfold clearCountsTaken
    rcases charterCheck_cases h t with ⟨u, r, kept⟩ | ⟨u, r, looked⟩ | ⟨u, r, looked, acts⟩ <;> rw [r] <;> dsimp only
    · exact kept.ok.reply ..
    · exact .after_reads looked (routine_reply ..).row
    · refine .after_reads looked (RowOk.reply ?_ ..)
      refine .of_settings rfl rfl rfl rfl rfl rfl rfl ⟨fun ok => ?_, fun _ other => absurd rfl other, fun _ _ => ⟨h, rfl, acts⟩⟩
      obtain ⟨settings, desc, cell, inbound, changed, -, -, rest⟩ := ok
      exact ⟨settings, desc, cell, inbound, changed, Nat.zero_le _, Nat.zero_le _, rest⟩
  · exact .idle

theorem correctedCount_ok : Answers (exec .correctedCount s) (RowOk .correctedCount s) := by
  show Answers (execCorrectedCount s) _
  unfold execCorrectedCount
  split
  · exact .idle
  · refine .next (.of_settings rfl rfl rfl rfl rfl rfl rfl ⟨fun ok => ?_, fun _ other => absurd rfl other, fun ok fewer => ?_⟩)
    · obtain ⟨settings, desc, cell, inbound, changed, -, rest⟩ := ok
      exact ⟨settings, desc, cell, inbound, changed, min_le_left .., rest⟩
    · obtain ⟨-, -, -, -, -, corrected, -⟩ := ok
      dsimp only at fewer
      omega

theorem uncorrectedCount_ok : Answers (exec .uncorrectedCount s) (RowOk .uncorrectedCount s) := by
  show Answers (execUncorrectedCount s) _
  unfold execUncorrectedCount
  split
  · exact .idle
  · refine .next (.of_settings rfl rfl rfl rfl rfl rfl rfl ⟨fun ok => ?_, fun _ other => absurd rfl other, fun ok fewer => ?_⟩)
    · obtain ⟨settings, desc, cell, inbound, changed, corrected, -, rest⟩ := ok
      exact ⟨settings, desc, cell, inbound, changed, corrected, min_le_left .., rest⟩
    · obtain ⟨-, -, -, -, -, -, uncorrected, -⟩ := ok
      dsimp only at fewer
      omega

end

end Sys2Proof.Machine
end

section
/-! PROOF. The rows of the presence unit and of the ports, and the resets but the assertion of RESETn. -/

namespace Sys2Proof.Machine

open Sys2Proof

section
variable {i : Instr} {s t u : State} {h g : HostId} {id : Nat}

/-! ## The presence unit -/

theorem PresenceOk.released (ok : PresenceOk s) (online : (s.record h).state ≠ .offline) :
    ¬ (s.resetn = true ∨ (s.port h).prstn = true) := fun low => online ((ok h).2.mpr low)

/-- A host that is not OFFLINE takes a record of another state that is not OFFLINE. -/
theorem RowOk.setOnline (s : State) (r : PresenceRecord) (online : (s.record h).state ≠ .offline) (stays : r.state ≠ .offline)
    (ok : (s.record h).Ok → r.Ok)
    (fence : r.fence = some .evicted → ∃ g v, i = .evict g v ∧ v.toNat = h.val ∧ g ≠ h ∧ (s.entry 0).acts g = true)
    (session : r.session ≠ (s.record h).session → i = .join h ∧ (s.record h).state ≠ .joined) : RowOk i s (s.setRecord h r) :=
  .setRecord s h r (fun all => ⟨ok (all h).1, iff_of_false stays (all.released online)⟩) (fun evicted _ => fence evicted) session

theorem takePresenceCommand_routine {k : CommandKind} {args : List Word} (taken : s.takePresenceCommand h k args = some (id, t)) :
    Routine s t ∧ (t.record h).state = (s.record h).state ∧ (s.record h).state ≠ .offline := by
  have routine := routine_takePresenceCommand taken
  obtain ⟨-, c, -, -, online, -⟩ := takePresenceCommand_some taken
  exact ⟨routine, routine.state h, online⟩

theorem nextSession_range {n : Nat} : nextSession n ≤ Config.sessionLimit ∧ 0 < nextSession n := by
  unfold nextSession
  have : Config.sessionLimit = 255 := rfl
  split <;> omega

theorem joinTaken_row (online : (s.record h).state ≠ .offline) (other : (s.record h).state ≠ .joined) :
    RowOk (.join h) s (joinTaken h id s) := by
  unfold joinTaken
  refine RowOk.reply (RowOk.then ?_ ((routine_announce _ _).trans (routine_offerPeers _ h _))) ..
  refine .setOnline s _ online nofun (fun _ => ?_) nofun fun _ => ⟨rfl, other⟩
  exact ⟨nextSession_range.1, fun _ => nextSession_range.2, by simp, by simp⟩

theorem join_ok : Answers (exec (.join h) s) (RowOk (.join h) s) := by
  show Answers (execJoin h s) _
  unfold execJoin
  split
  · exact .idle
  · next id t taken =>
    obtain ⟨routine, state, online⟩ := takePresenceCommand_routine taken
    split
    · exact .next (routine.trans (routine_reply ..)).row
    · next pass =>
      refine .next (.after routine (joinTaken_row (state ▸ online) fun joined => ?_))
      rw [← state, joined] at pass
      cases pass

/-- A host that gives up its session for UNJOINED or FENCED (R10, R11, R14). -/
theorem RowOk.leaves (s : State) {cause : DepartureCause} {st : PresenceState} {fence : Option FenceCause}
    (joined : (s.record h).state = .joined) (stays : st ≠ .offline) (leaves : st ≠ .joined)
    (fences : fence.isSome = true ↔ st = .fenced)
    (evicted : fence = some .evicted → ∃ g v, i = .evict g v ∧ v.toNat = h.val ∧ g ≠ h ∧ (s.entry 0).acts g = true) :
    RowOk i s (s.raiseDeparture h cause st fence) := by
  refine .raiseDeparture s h cause st fence (.setOnline s _ (by simp [joined]) stays (fun ok => ?_) evicted fun other =>
    absurd rfl other)
  exact ⟨ok.1, fun e => absurd e leaves, iff_of_false (by simp) leaves, fences⟩

theorem joined_of_pass {k : CommandKind} {st : PresenceState} {o : Owner} (own : k = .leave ∨ k = .renew ∨ k = .evict)
    (pass : admission (some k) st = .pass o) : st = .joined := by
  rcases own with rfl | rfl | rfl <;> cases st <;> first | rfl | cases pass

theorem leave_ok : Answers (exec (.leave h) s) (RowOk (.leave h) s) := by
  show Answers (execLeave h s) _
  unfold execLeave
  split
  · exact .idle
  · next id t taken =>
    obtain ⟨routine, state, -⟩ := takePresenceCommand_routine taken
    split
    · exact .next (routine.trans (routine_reply ..)).row
    · next pass =>
      have joined := state.trans (joined_of_pass (.inl rfl) pass)
      refine .next (.after routine (.then ?_ (routine_sendReply ..)))
      exact .leaves t joined nofun nofun (by simp) nofun

theorem renew_ok : Answers (exec (.renew h) s) (RowOk (.renew h) s) := by
  show Answers (execRenew h s) _
  unfold execRenew
  split
  · exact .idle
  · next taken =>
    have routine := (takePresenceCommand_routine taken).1
    split <;> exact .next (routine.trans (routine_reply ..)).row

theorem status_ok : Answers (exec (.status h) s) (RowOk (.status h) s) := by
  show Answers (execStatus h s) _
  unfold execStatus
  split
  · exact .idle
  · next taken => exact .next ((takePresenceCommand_routine taken).1.trans (routine_reply ..)).row

theorem parseHost_some {w : Word} (e : parseHost w = some g) : w.toNat = g.val := by
  unfold parseHost at e
  split at e
  · cases e
    rfl
  · cases e

theorem evictTaken_row (target : Word) : RowOk (.evict h target) s (evictTaken h id target s) := by
  unfold evictTaken
  rcases charterCheck_cases h s with ⟨u, r, kept⟩ | ⟨u, r, looked⟩ | ⟨u, r, looked, acts⟩ <;> rw [r] <;> dsimp only
  · exact kept.ok.reply ..
  · exact .after_reads looked (routine_reply ..).row
  · refine .after_reads looked ?_
    split
    · exact (routine_reply ..).row
    · next g names =>
      split
      · exact (routine_reply ..).row
      · next fit =>
        rw [not_or, not_not] at fit
        refine RowOk.reply ?_ ..
        exact .leaves u fit.2 nofun nofun (by simp) fun _ => ⟨h, target, rfl, parseHost_some names, Ne.symm fit.1, acts⟩

theorem evict_ok (target : Word) : Answers (exec (.evict h target) s) (RowOk (.evict h target) s) := by
  show Answers (execEvict h target s) _
  unfold execEvict
  split
  · next taken =>
    obtain ⟨c, -, -, -, rfl⟩ := takeAdmittedEvict_some taken
    exact .next (.after (routine_setEvicting ..) (evictTaken_row target))
  · split
    · exact .idle
    · next taken =>
      have routine := (takePresenceCommand_routine taken).1
      split
      · exact .next (routine.trans (routine_reply ..)).row
      · exact .next (.after routine (evictTaken_row target))

theorem unknownCommandCode_ok (code : Word) :
    Answers (exec (.unknownCommandCode h code) s) (RowOk (.unknownCommandCode h code) s) := by
  show Answers (execUnknownCommandCode h code s) _
  unfold execUnknownCommandCode
  split
  · exact .idle
  · next taken =>
    split
    · exact .next (((routine_takeFromPort taken).trans (routine_passParked ..)).trans (routine_reply ..)).row
    · exact .idle

theorem routine_passCommand (s : State) (c : Command) (o : Owner) : Routine s (s.passCommand c o) := by
  cases o with
  | presenceUnit => exact .refl s
  | directory => exact routine_setDirPath ..
  | store => exact routine_setStorePath ..
  | noticeUnit => exact routine_setNoticePath ..
  | settings => exact routine_setSettingsPath ..

theorem commandAdmission_ok : Answers (exec (.commandAdmission h) s) (RowOk (.commandAdmission h) s) := by
  show Answers (execCommandAdmission h s) _
  unfold execCommandAdmission
  split
  · exact .idle
  · next c t taken =>
    have routine := routine_takeFromPort taken
    split
    · exact .next ((routine.trans (routine_passParked ..)).trans (routine_reply ..)).row
    · unfold keepOwnCommand
      split
      · exact .next ((routine.trans (routine_setEvicting ..)).trans (routine_passParked ..)).row
      · exact .idle
    · exact .next ((routine.trans (routine_passCommand ..)).trans (routine_passParked ..)).row

theorem termExpiry_ok : Answers (exec (.termExpiry h) s) (RowOk (.termExpiry h) s) := by
  show Answers (execTermExpiry h s) _
  unfold execTermExpiry
  split
  · next due =>
    refine .next ?_
    exact .leaves s due.1 nofun nofun (by simp) nofun
  · exact .idle

/-! ## Accesses to the window -/

theorem RowOk.windowWrite {loc : Loc} {act : State → State} (each : RowOk i s (act s)) : RowOk i s (windowWrite h loc act s) := by
  unfold Machine.windowWrite
  split
  · exact each
  · exact (Routine.refl s).row

theorem RowOk.windowRead {loc : Loc} {act : State → State} (each : RowOk i s (act s)) : RowOk i s (windowRead h loc act s) := by
  unfold Machine.windowRead
  split
  · split
    · exact (routine_returnWord ..).row
    · exact each
  · exact (Routine.refl s).row

theorem argWrite_ok (w : Word) : Answers (exec (.argWrite h w) s) (RowOk (.argWrite h w) s) := by
  refine .next (.windowWrite ?_)
  unfold appendArg
  split
  · next short =>
    refine .setPort s _ rfl rfl fun ok => ⟨?_, ok.2⟩
    rw [List.length_append, List.length_singleton]
    exact short
  · exact .setOverrun s rfl

theorem cmdWrite_ok (code : Word) : Answers (exec (.cmdWrite h code) s) (RowOk (.cmdWrite h code) s) := by
  refine .next (.windowWrite ?_)
  unfold acceptCommand
  dsimp only
  split
  · exact .setOverrun s rfl
  · exact .setPort s _ rfl rfl fun _ => ⟨Nat.zero_le _, Nat.zero_le _, by simp⟩

theorem payWrite_ok (part : PayWritePart) : Answers (exec (.payWrite h part) s) (RowOk (.payWrite h part) s) := by
  cases part with
  | access w =>
    refine .next (.windowWrite ?_)
    unfold passPayWord
    split
    · exact Routine.row (by apply routine_setPort <;> rfl)
    · exact (routine_setStorePath ..).row
  | taken =>
    refine .next ?_
    unfold takePay
    split
    · exact (Routine.refl s).row
    · next w rest _ =>
      refine .after (routine_setStorePath s rest) ?_
      rcases storePayWord_cases h w (s.setStorePath rest) with overrun | kept
      · rw [overrun]
        exact .setOverrun _ rfl
      · exact kept.ok

theorem amaskWrite_ok (w : Word) : Answers (exec (.amaskWrite h w) s) (RowOk (.amaskWrite h w) s) :=
  .next (.windowWrite (.setPort s _ rfl rfl fun ok => ok))

theorem rplRead_ok : Answers (exec (.rplRead h) s) (RowOk (.rplRead h) s) := by
  refine .next (.windowRead ?_)
  have overrun : RowOk (.rplRead h) s ((s.setOverrun h).returnWord h 0#16) := .then (.setOverrun s rfl) (routine_returnWord ..)
  unfold readReplyWord
  dsimp only
  split
  · exact (routine_returnWord ..).row
  split
  · split
    · next left =>
      refine .then ?_ (routine_returnWord ..)
      exact .setPort s _ rfl rfl fun ok => ⟨ok.1, left, ok.2.2⟩
    · exact overrun
  · exact overrun

theorem payRead_ok : Answers (exec (.payRead h) s) (RowOk (.payRead h) s) := by
  refine .next (.windowRead ?_)
  unfold readPayWord
  split
  · exact .then (.setOverrun s rfl) (routine_returnWord ..)
  split
  · exact (Routine.refl s).row
  · refine .then ?_ (routine_returnWord ..)
    rcases storePayRead_cases h s with overrun | kept
    · rw [overrun]
      exact .setOverrun s rfl
    · exact kept.ok

theorem pstatRead_ok : Answers (exec (.pstatRead h) s) (RowOk (.pstatRead h) s) := by
  refine .next (.windowRead (.then ?_ (routine_returnWord ..)))
  exact .setPort s _ rfl rfl fun ok => ok

theorem readForCount_kept (s : State) : StoreKept s (readForCount s) := (readForCount_upkeep s).kept

theorem pcountRead_ok : Answers (exec (.pcountRead h) s) (RowOk (.pcountRead h) s) := by
  refine .next (.windowRead ?_)
  unfold readCounts
  refine .then ?_ (routine_returnWord ..)
  split
  · exact (readForCount_kept s).ok
  · exact (Routine.refl s).row

/-! ## Replies, departures and serial transactions at a port -/

theorem placeReply_prstn (p : Port) (r : Reply) : (placeReply p r).prstn = p.prstn := by
  unfold placeReply
  split
  · rfl
  · split <;> rfl

theorem placeReply_ok {p : Port} (r : Reply) (ok : p.Ok) : (placeReply p r).Ok := by
  unfold placeReply
  split
  · exact ok
  · split
    · exact ⟨ok.1, Nat.zero_le _, by simp [Port.busy]⟩
    · exact ok

theorem replyArrival_ok (k : Nat) : Answers (exec (.replyArrival h k) s) (RowOk (.replyArrival h k) s) := by
  show Answers (execReplyArrival h k s) _
  unfold execReplyArrival
  split
  · exact .idle
  · next r _ =>
    split
    · exact .idle
    · exact .next (.setPort s _ rfl (placeReply_prstn _ r) fun ok => placeReply_ok r ok)

theorem portDeparture_ok : Answers (exec (.portDeparture h) s) (RowOk (.portDeparture h) s) := by
  show Answers (execPortDeparture h s) _
  unfold execPortDeparture
  split
  · exact .idle
  · dsimp only
    refine .next (.setPort s _ rfl ?_ fun ok => ?_)
    · split <;> rfl
    · split
      · exact ⟨Nat.zero_le _, Nat.zero_le _, by simp⟩
      · exact ⟨Nat.zero_le _, ok.2⟩

theorem serialTransactionBegin_ok : Answers (exec (.serialTransactionBegin h) s) (RowOk (.serialTransactionBegin h) s) := by
  show Answers (execSerialTransactionBegin h s) _
  unfold execSerialTransactionBegin
  split
  · exact .next (Routine.row (by apply routine_setPort <;> rfl))
  · exact .idle

theorem headerByte_ok (part : HeaderPart) : Answers (exec (.headerByte h part) s) (RowOk (.headerByte h part) s) := by
  cases part with
  | byte b =>
    show Answers (execHeaderByte h (.byte b) s) _
    unfold execHeaderByte
    dsimp only
    split
    · exact .next (Routine.row (by apply routine_setPort <;> rfl))
    · exact .idle
  | quietWord =>
    refine .next ?_
    unfold readQuietWord
    split
    · split
      · exact (routine_returnWord ..).row
      · exact (Routine.refl s).row
    · exact (Routine.refl s).row

theorem serialTransactionEnd_ok (cut : List Bool) :
    Answers (exec (.serialTransactionEnd h cut) s) (RowOk (.serialTransactionEnd h cut) s) := by
  show Answers (execSerialTransactionEnd h cut s) _
  unfold execSerialTransactionEnd
  split
  · exact .next (Routine.row (by apply routine_setPort <;> rfl))
  · exact .idle

/-! ## PRSTn (R18, R176) -/

theorem setRecord_port (s : State) (h : HostId) (r : PresenceRecord) (g : HostId) : (s.setRecord h r).port g = s.port g := rfl

/-- A pin and the presence record that goes with it (R2, R18). -/
theorem RowOk.setPin (s : State) (b : Bool) (r : PresenceRecord) (own : hostOf i = some h)
    (ok : PresenceOk s → r.Ok ∧ (r.state = .offline ↔ (s.resetn = true ∨ b = true)))
    (fence : r.fence = some .evicted → (s.record h).fence = some .evicted) (session : r.session = (s.record h).session) :
    RowOk i s ((s.setPort h { s.port h with prstn := b }).setRecord h r) where
  kept := SameObjects.row (.of_blocks rfl rfl)
  frame := {
    pending := rfl
    presence := {
      ok := fun all g => by
        rcases eq_or_ne h g with rfl | ne
        · rw [State.setRecord_record_same, setRecord_port, State.setPort_port_same]
          exact ok all
        · rw [State.setRecord_record_ne _ _ _ _ ne, setRecord_port, State.setPort_port_ne _ _ _ _ ne]
          exact all g
      fence := fun g evicted other => by
        rw [State.setRecord_record] at evicted
        split at evicted
        · next e => exact absurd (e ▸ fence evicted) other
        · exact absurd evicted other
      session := fun g other => by
        rw [State.setRecord_record] at other
        split at other
        · next e => exact absurd (e ▸ session) other
        · exact absurd rfl other }
    ports := .of_port own (fun g ne => by rw [setRecord_port, State.setPort_port_ne _ _ _ _ ne]) fun k => by
      rw [setRecord_port, State.setPort_port_same]
      exact k
    rings := fun k => k
    settings := .of_same (fun _ => rfl) rfl rfl rfl rfl rfl rfl rfl }

/-- The window of the row's own host changed after the row's other work. -/
theorem RowOk.then_window (a : RowOk i s t) (p : Port) (own : hostOf i = some h) (prstn : p.prstn = (t.port h).prstn)
    (ok : p.Ok) : RowOk i s (t.setPort h p) where
  kept := a.kept.then_objects (.of_blocks rfl rfl) rfl rfl
  frame := {
    pending := a.frame.pending
    presence := {
      ok := fun k g => by
        rcases eq_or_ne h g with rfl | ne
        · rw [State.setPort_port_same, prstn]
          exact a.frame.presence.ok k h
        · rw [State.setPort_port_ne _ _ _ _ ne]
          exact a.frame.presence.ok k g
      fence := a.frame.presence.fence
      session := a.frame.presence.session }
    ports := {
      ok := fun k g => by
        rcases eq_or_ne h g with rfl | ne
        · rw [State.setPort_port_same]
          exact ok
        · rw [State.setPort_port_ne _ _ _ _ ne]
          exact a.frame.ports.ok k g
      view := fun pins g other => by
        have ne : h ≠ g := fun e => other (e ▸ own)
        rw [State.setPort_port_ne _ _ _ _ ne]
        exact a.frame.ports.view pins g other }
    rings := a.frame.rings
    settings := ⟨a.frame.settings.ok, a.frame.settings.setting, a.frame.settings.counts⟩ }

theorem setRecord_self (s : State) (h : HostId) : s.setRecord h (s.record h) = s := by
  unfold State.setRecord State.record
  rw [upd_get_self]

/-- The presence unit's part of a port reset is a record replaced, and routine work. -/
theorem presenceReset_routine (h : HostId) (s : State) :
    Routine (s.setRecord h ⟨.offline, (s.record h).session, none, none⟩) (presenceReset h s) := by
  unfold presenceReset
  split
  · exact (routine_announce _ _).trans (routine_offerPeers _ h _)
  all_goals exact .refl _

theorem prstnAssert_ok : Answers (exec (.prstnAssert h) s) (RowOk (.prstnAssert h) s) := by
  show Answers (execPrstnAssert h s) _
  unfold execPrstnAssert
  split
  · exact .idle
  dsimp only
  split
  · next held =>
    refine .next ?_
    have pin := RowOk.setPin (i := .prstnAssert h) s true (s.record h) rfl (fun ok => ⟨(ok h).1, ?_⟩) (fun e => e) rfl
    · exact setRecord_self (s.setPort h { s.port h with prstn := true }) h ▸ pin
    · rw [(ok h).2, held]
      simp
  · refine .next ?_
    have pin := RowOk.setPin (i := .prstnAssert h) s true ⟨.offline, (s.record h).session, none, none⟩ rfl
      (fun ok => ⟨⟨(ok h).1.1, nofun, by simp, by simp⟩, by simp⟩) nofun rfl
    have reset := pin.then (presenceReset_routine h (s.setPort h { s.port h with prstn := true }))
    unfold portReset
    refine .then ?_ (routine_setStorePath ..)
    refine reset.then_window _ rfl rfl ?_
    exact ⟨Nat.zero_le _, Nat.zero_le _, by simp [Port.portReset, Port.busy]⟩

theorem prstnRelease_ok : Answers (exec (.prstnRelease h) s) (RowOk (.prstnRelease h) s) := by
  show Answers (execPrstnRelease h s) _
  unfold execPrstnRelease
  split
  · next low =>
    dsimp only
    refine .next ?_
    split
    · next held =>
      have pin := RowOk.setPin (i := .prstnRelease h) s false (s.record h) rfl (fun ok => ⟨(ok h).1, ?_⟩) (fun e => e) rfl
      · exact setRecord_self (s.setPort h { s.port h with prstn := false }) h ▸ pin
      · rw [(ok h).2, held]
        simp
    · next released =>
      refine .setPin s false _ rfl (fun ok => ?_) (fun e => e) rfl
      have offline := (ok h).2.mpr (.inr low)
      obtain ⟨session, -, term, fence⟩ := (ok h).1
      rw [offline] at term fence
      have stopped : (s.record h).term.isSome ≠ true := fun e => nomatch term.mp e
      have clear : (s.record h).fence.isSome ≠ true := fun e => nomatch fence.mp e
      exact ⟨⟨session, nofun, iff_of_false stopped nofun, iff_of_false clear nofun⟩, iff_of_false nofun (by simpa using released)⟩
  · exact .idle

/-! ## The release of RESETn (R19, R177) -/

/-- The part as the release of RESETn leaves it. -/
def State.released (s : State) (pins : PerHost Bool) : State :=
  { s with
    resetn := false
    ports := Vector.ofFn fun h => { s.port h with mode := modeOfPin (pins.get h) }
    presence := { s.presence with records := Vector.ofFn fun h =>
      if (s.port h).prstn then s.record h else { s.record h with state := .unjoined } } }

theorem released_port (s : State) (pins : PerHost Bool) (g : HostId) :
    (s.released pins).port g = { s.port g with mode := modeOfPin (pins.get g) } := Vector.get_ofFn ..

theorem released_record (s : State) (pins : PerHost Bool) (g : HostId) : (s.released pins).record g =
    if (s.port g).prstn = true then s.record g else { s.record g with state := .unjoined } := Vector.get_ofFn ..

theorem released_presence (held : s.resetn = true) (pins : PerHost Bool) : PresenceKept i s (s.released pins) where
  ok ok g := by
    obtain ⟨⟨session, positive, term, fence⟩, offline⟩ := ok g
    have off := offline.mpr (.inl held)
    rw [released_record, released_port]
    split
    · next low => exact ⟨⟨session, positive, term, fence⟩, iff_of_true off (.inr low)⟩
    · next high =>
      rw [off] at term fence
      have stopped : (s.record g).term.isSome ≠ true := fun e => nomatch term.mp e
      have clear : (s.record g).fence.isSome ≠ true := fun e => nomatch fence.mp e
      exact ⟨⟨session, nofun, iff_of_false stopped nofun, iff_of_false clear nofun⟩,
        iff_of_false nofun (by simpa [State.released] using high)⟩
  fence g evicted other := by
    rw [released_record] at evicted
    split at evicted <;> exact absurd evicted other
  session g other := by
    rw [released_record] at other
    split at other <;> exact absurd rfl other

theorem resetnRelease_ok (pins : PerHost Bool) : Answers (exec (.resetnRelease pins) s) (RowOk (.resetnRelease pins) s) := by
  show Answers (execResetnRelease pins s) _
  unfold execResetnRelease
  split
  · next held =>
    refine .next (t := s.released pins) ⟨SameObjects.row (.of_blocks rfl rfl), rfl, released_presence held pins, ?_, fun ok => ok,
      .of_same (fun _ => rfl) rfl rfl rfl rfl rfl rfl rfl⟩
    refine ⟨fun ok g => ?_, fun other => absurd rfl (other pins)⟩
    rw [released_port]
    exact ok g
  · exact .idle

end

end Sys2Proof.Machine
end

section
/-! PROOF. Every row but device reset keeps what a row keeps; device reset starts the part afresh; and what follows for
every step (O1, O2, O5, O52 to O59). -/

namespace Sys2Proof.Machine

open Sys2Proof

/-! ## All rows -/

theorem row_ok (i : Instr) (s : State) (other : i ≠ .resetnAssert) : Answers (exec i s) (RowOk i s) := by
  cases i with
  | join h => exact join_ok
  | leave h => exact leave_ok
  | renew h => exact renew_ok
  | status h => exact status_ok
  | evict h target => exact evict_ok target
  | unknownCommandCode h code => exact unknownCommandCode_ok code
  | claim h lease mode wait => exact claim_ok lease mode wait
  | release h lease => exact release_ok lease
  | upgrade h lease wait => exact upgrade_ok lease wait
  | downgrade h lease => exact downgrade_ok lease
  | cancelWait h => exact cancelWait_ok
  | repair h lease => exact repair_ok lease
  | query h lease => exact query_ok lease
  | writeValue h lease hi lo => exact writeValue_row_ok lease hi lo
  | spaceWait h cells wait => exact spaceWait_ok cells wait
  | spaceCancel h => exact spaceCancel_ok
  | beginMessage h dest length cls tag fenceLease fenceGen carried => exact beginMessage_ok ..
  | commit h => exact commit_ok
  | abandon h => exact abandon_ok
  | unwind h => exact unwind_ok
  | openMessage h => exact openMessage_ok
  | accept h => exact accept_ok
  | refuse h => exact refuse_ok
  | nextNotice h => exact nextNotice_ok
  | setParam h param value => exact setParam_ok param value
  | readParam h param => exact readParam_ok param
  | deviceStatus h => exact deviceStatus_ok
  | clearCounts h => exact clearCounts_ok
  | replyArrival h k => exact replyArrival_ok k
  | argWrite h w => exact argWrite_ok w
  | rplRead h => exact rplRead_ok
  | payWrite h part => exact payWrite_ok part
  | payRead h => exact payRead_ok
  | pstatRead h => exact pstatRead_ok
  | pcountRead h => exact pcountRead_ok
  | amaskWrite h w => exact amaskWrite_ok w
  | windowWriteIgnored h loc w => exact .idle
  | prstnAssert h => exact prstnAssert_ok
  | prstnRelease h => exact prstnRelease_ok
  | resetnAssert => exact absurd rfl other
  | resetnRelease modePins => exact resetnRelease_ok modePins
  | tick part => exact tick_ok part
  | termExpiry h => exact termExpiry_ok
  | claimWaitExpiry h => exact claimWaitExpiry_ok
  | upgradeWaitExpiry h => exact upgradeWaitExpiry_ok
  | spaceWaitExpiry h => exact spaceWaitExpiry_ok
  | reservationLapse h => exact reservationLapse_ok
  | directoryJoin h => exact directoryJoin_row_ok
  | storeJoin h => exact storeJoin_ok
  | noticeUnitJoin h => exact noticeUnitJoin_ok
  | directoryDeparture h part => exact directoryDeparture_ok part
  | storeDeparture h => exact storeDeparture_ok
  | noticeUnitDeparture h => exact noticeUnitDeparture_ok
  | portDeparture h => exact portDeparture_ok
  | noticeOffer h k => exact noticeOffer_ok k
  | storeSettingChange => exact storeSettingChange_ok
  | correctedCount => exact correctedCount_ok
  | uncorrectedCount => exact uncorrectedCount_ok
  | cmdWrite h code => exact cmdWrite_ok code
  | commandAdmission h => exact commandAdmission_ok
  | serialTransactionBegin h => exact serialTransactionBegin_ok
  | headerByte h part => exact headerByte_ok part
  | serialTransactionEnd h cutBits => exact serialTransactionEnd_ok cutBits

theorem RowOk.of_exec {i : Instr} {s t : State} (e : exec i s = .next t) (other : i ≠ .resetnAssert) : RowOk i s t := by
  obtain ⟨u, e', row⟩ := row_ok i s other
  rw [e] at e'
  injection e' with same
  exact same ▸ row

/-! ## Device reset -/

theorem vector_get_replicate {α : Type} {n : Nat} (x : α) (k : Fin n) : (Vector.replicate n x).get k = x :=
  Vector.getElem_replicate ..

/-- The part as device reset leaves it. -/
def State.deviceReset (s : State) : State := { State.reset with ports := s.ports.map Port.deviceReset, pending := s.pending }

theorem reset_entry (l : LeaseId) : State.reset.entry l = LeaseEntry.reset := congrArg Coded.val (vector_get_replicate ..)

theorem reset_wait (h : HostId) : State.reset.wait h = none := vector_get_replicate ..

theorem reset_desc (d : DescId) : State.reset.desc d = Descriptor.cleared := congrArg Coded.val (vector_get_replicate ..)

theorem reset_mapEntry (c : CellId) : State.reset.mapEntry c = .free := congrArg Coded.val (vector_get_replicate ..)

theorem reset_space (h : HostId) : State.reset.space h = .empty := vector_get_replicate ..

theorem reset_stream (h : HostId) : State.reset.stream h = ⟨none, none, 0⟩ := vector_get_replicate ..

theorem reset_queue (h : HostId) : State.reset.queue h = [] := by
  rw [State.queue]
  exact congrArg (fun q : InboundQueue => q.urgent ++ q.normal) (vector_get_replicate ..)

theorem reset_ring (h : HostId) : State.reset.ring h = [] := vector_get_replicate ..

theorem reset_lost (h : HostId) : State.reset.lost h = 0 := vector_get_replicate ..

theorem reset_record (h : HostId) : State.reset.record h = PresenceRecord.reset := vector_get_replicate ..

theorem reset_port (h : HostId) : State.reset.port h = Port.reset := vector_get_replicate ..

theorem reset_directory_ok : DirectoryOk State.reset := by
  refine ⟨fun l => ?_, (waitsMatch_iff _).mpr fun l h k => ?_, fun l h role => ?_⟩
  · rw [reset_entry]
    exact ⟨List.nodup_nil, nofun, rfl, rfl, rfl, rfl, rfl, rfl⟩
  · rw [reset_entry, State.waitKey, reset_wait]
    cases k <;> simp [LeaseEntry.Awaits, LeaseEntry.reset]
  · rw [reset_entry] at role
    simp [LeaseEntry.hasRole, LeaseEntry.hasWaiter, LeaseEntry.acts, LeaseEntry.reset] at role

theorem reset_store_ok : StoreOk State.reset := by
  refine ⟨⟨fun c d p => ?_, fun c c' d p => ?_⟩, ⟨List.nodup_nil, fun h => ?_, fun h d => ?_, fun h d => ?_, fun d => ?_,
    fun h d => ?_, fun h => ?_, fun h d => ?_⟩, fun d m => ?_, fun h d m => ?_⟩
  · simp [reset_mapEntry]
  · simp [reset_mapEntry]
  · rw [reset_space]
    simp [State.reset, Store.reset]
  · simp [reset_space, reset_desc, Descriptor.cleared]
  · simp [reset_stream, reset_desc, Descriptor.cleared]
  · simp [reset_desc, Descriptor.cleared]
  · simp [reset_stream, reset_desc, Descriptor.cleared]
  · rw [reset_queue]
    exact List.nodup_nil
  · simp [reset_queue, reset_desc, Descriptor.cleared]
  · simp [reset_desc, Descriptor.cleared]
  · simp [reset_stream]

theorem reset_transit_ok : TransitOk State.reset := by
  intro l x e
  rw [reset_entry] at e
  cases e

theorem reset_payload_ok : PayloadOk State.reset := ⟨rfl, nofun⟩

theorem reset_rings_ok : RingsOk State.reset := fun h => by
  rw [reset_ring, reset_lost]
  exact ⟨Nat.zero_le _, Nat.zero_le _⟩

theorem Setting.default_inRange (x : Setting) : x.inRange x.default := by
  unfold Setting.inRange
  cases x <;> decide

theorem reset_settings_ok : SettingsOk State.reset := by
  refine ⟨fun x => ?_, Setting.default_inRange .descQuota, Setting.default_inRange .cellQuota,
    Setting.default_inRange .inboundLimit, nofun, Nat.zero_le _, Nat.zero_le _, Setting.default_inRange .tickDiv, by decide⟩
  have same : State.reset.setting x = x.default := by cases x <;> rfl
  rw [same]
  exact Setting.default_inRange x

theorem Port.reset_ok : Port.reset.Ok := ⟨Nat.zero_le _, Nat.zero_le _, by decide⟩

theorem reset_ports_ok : PortsOk State.reset := fun h => by
  rw [reset_port]
  exact Port.reset_ok

theorem PresenceRecord.reset_ok : PresenceRecord.reset.Ok := ⟨Nat.zero_le _, nofun, by decide, by decide⟩

theorem reset_presence_ok : PresenceOk State.reset := fun h => by
  rw [reset_record]
  exact ⟨PresenceRecord.reset_ok, iff_of_true rfl (.inl rfl)⟩

/-- Settles O55: block by block from the values of device reset. -/
theorem deviceResetIsSound : Obligations.DeviceResetIsSound :=
  ⟨reset_directory_ok, reset_store_ok, reset_transit_ok, reset_payload_ok, reset_rings_ok, reset_settings_ok, reset_ports_ok,
    reset_presence_ok⟩

theorem deviceReset_port (s : State) (h : HostId) : s.deviceReset.port h = (s.port h).deviceReset := vector_get_map ..

theorem deviceReset_record (s : State) (h : HostId) : s.deviceReset.record h = PresenceRecord.reset := reset_record h

theorem deviceReset_ports_ok (s : State) : PortsOk s.deviceReset := fun h => by
  rw [deviceReset_port]
  exact Port.reset_ok

theorem deviceReset_presence_ok (s : State) : PresenceOk s.deviceReset := fun h => by
  rw [deviceReset_record]
  exact ⟨PresenceRecord.reset_ok, iff_of_true rfl (.inl rfl)⟩

theorem deviceReset_usage (s : State) (h : HostId) : descUsage h s.deviceReset = 0 ∧ cellUsage h s.deviceReset = 0 := by
  have desc : ∀ d, s.deviceReset.desc d = Descriptor.cleared := reset_desc
  have map : ∀ c, s.deviceReset.mapEntry c = .free := reset_mapEntry
  refine ⟨List.countP_eq_zero.mpr fun d _ => ?_, List.countP_eq_zero.mpr fun c _ => ?_⟩
  · rw [desc]
    simp [Descriptor.usedBy, Descriptor.cleared]
  · rw [State.cellUsedBy, map]
    simp

/-! ## The rows and the queue of waiting commands (O1, O2) -/

/-- Settles O1: `step` is that match. -/
theorem stepRunsFrontCommand : Obligations.StepRunsFrontCommand :=
  ⟨fun s c rest waiting => by rw [step, waiting], fun s none => by rw [step, none]⟩

/-- Settles O2: from `row_ok`, and device reset keeps the queue. -/
theorem everyCommandAnswersNext : Obligations.EveryCommandAnswersNext := by
  intro i s
  by_cases reset : i = .resetnAssert
  · subst reset
    exact ⟨_, rfl, rfl⟩
  · obtain ⟨t, e, row⟩ := row_ok i s reset
    exact ⟨t, e, row.frame.pending⟩

/-! ## What every step keeps (O52 to O54) -/

/-- What holds of the state without the command at the front, and is kept by every row and met by device reset, is kept by
every step. -/
theorem step_induction {P : State → State → Prop} {s t : State} (e : step s = .next t) (idle : P s s)
    (reset : ∀ pending, P s { State.reset with ports := s.ports.map Port.deviceReset, pending := pending })
    (row : ∀ i pending, RowOk i { s with pending := pending } t → P s t) : P s t := by
  unfold step at e
  split at e
  · injection e with same
    exact same ▸ idle
  · next i rest _ =>
    by_cases other : i = .resetnAssert
    · subst other
      injection e with same
      exact same ▸ reset rest
    · exact row i rest (.of_exec e other)

/-- Settles O52: the directory part of `RowKept`, row by row, and the reset directory. -/
theorem stepKeepsDirectorySound : Obligations.StepKeepsDirectorySound := fun _ _ ok e =>
  step_induction (P := fun _ t => DirectoryOk t) e ok (fun _ => reset_directory_ok.of_dir rfl)
    fun _ _ row => row.kept.dir_ok (ok.of_dir rfl)

/-- Settles O53: the store part of `RowKept`, row by row, and the reset store. -/
theorem stepKeepsStoreSound : Obligations.StepKeepsStoreSound := fun _ _ ok e =>
  step_induction (P := fun s t => StoreOk t ∧ (TransitOk s → TransitOk t)) e ⟨ok, fun sound => sound⟩
    (fun _ => ⟨reset_store_ok.of_store rfl, fun _ => reset_transit_ok⟩)
    fun _ _ row => ⟨row.kept.store_ok (ok.of_store rfl), row.kept.transit (ok.of_store rfl)⟩

/-- Settles O54: the payload part of `RowKept` and the parts of `RowFrame`, row by row, and the values of device reset. -/
theorem stepKeepsBounds : Obligations.StepKeepsBounds := fun s _ e =>
  step_induction (P := fun s t => (PayloadOk s → PayloadOk t) ∧ (RingsOk s → RingsOk t) ∧ (SettingsOk s → SettingsOk t)
      ∧ (PortsOk s → PortsOk t) ∧ (PresenceOk s → PresenceOk t)) e
    ⟨fun ok => ok, fun ok => ok, fun ok => ok, fun ok => ok, fun ok => ok⟩
    (fun _ => ⟨fun _ => reset_payload_ok, fun _ => reset_rings_ok, fun _ => reset_settings_ok,
      fun _ => deviceReset_ports_ok s, fun _ => deviceReset_presence_ok s⟩)
    fun _ _ row => ⟨row.kept.payload, row.frame.rings, row.frame.settings.ok, row.frame.ports.ok, row.frame.presence.ok⟩

/-! ## What no row but device reset does (O56 to O59) -/

/-- Settles O56: the entries and the retired cells of `RowKept`. -/
theorem generationsAndRetiredCells : Obligations.GenerationsAndRetiredCells := by
  intro i s t e other
  have row := RowOk.of_exec e other
  refine ⟨fun l kept => ?_, row.kept.retired⟩
  have law := (row.kept.entries l).resolve_left kept
  exact ⟨law.generation, law.exclusive, law.value⟩

/-- Settles O57: the windows of `PortsKept`. -/
theorem otherWindowsUntouched : Obligations.OtherWindowsUntouched := fun _ _ _ g e others other release =>
  (RowOk.of_exec e other).frame.ports.view release g others

/-- Settles O58: the settings, the counts, the fences and the sessions of `RowFrame`. -/
theorem charterGuardsThePart : Obligations.CharterGuardsThePart := by
  intro i s t e other
  obtain ⟨-, presence, -, -, settings⟩ := (RowOk.of_exec e other).frame
  exact ⟨settings.setting, settings.counts, presence.fence, presence.session⟩

/-- Settles O59: the usage of `RowKept`, and device reset leaves no usage. -/
theorem usageRisesWithinQuota : Obligations.UsageRisesWithinQuota := by
  intro i s t h ok e
  by_cases other : i = .resetnAssert
  · subst other
    injection e with same
    obtain ⟨descs, cells⟩ := deviceReset_usage s h
    rw [← same]
    change (_ < descUsage h s.deviceReset → _) ∧ (_ < cellUsage h s.deviceReset → _)
    rw [descs, cells]
    exact ⟨fun more => absurd more (Nat.not_lt_zero _), fun more => absurd more (Nat.not_lt_zero _)⟩
  · have usage := (RowOk.of_exec e other).kept.usage ok h
    omega

end Sys2Proof.Machine
end

section
/-! PROOF. Commands taken off their paths, and the admission, the departures and the resets at the presence unit (O4 to O7,
O9, O10). -/

namespace Sys2Proof.Machine

open Sys2Proof

theorem upd_upd {α : Type} {n : Nat} (v : Vector α n) (k : Fin n) (x y : α) : upd (upd v k x) k y = upd v k y := by
  ext j lt
  simp only [upd, Vector.getElem_set]
  split <;> rfl

/-! ## A command taken off its path (R6) -/

theorem Command.isFor_of_args {c : Command} {h : HostId} {k : CommandKind} {args : List Word} (host : c.host = h)
    (code : c.code = k.code) (words : ∀ i, i < args.length → args[i]? = some ((c.args[i]?).getD 0#16)) :
    c.isFor h k args = true := by
  have same : (List.range args.length).map c.arg = args := by
    refine List.ext_getElem? fun i => ?_
    by_cases inside : i < args.length
    · rw [words i inside]
      simp [inside, Command.arg]
    · simp [inside]
  simp [Command.isFor, host, code, same]

section
variable {s : State} {c : Command} {h : HostId} {k : CommandKind} {args : List Word}

theorem takeDirCommand_of_head {rest : List PathItem} (own : c.isFor h k args = true) (head : s.dir.path = .command c :: rest)
    (joined : (s.dir.joined.get h).isSome = true) : s.takeDirCommand h k args = some (c.id, s.setDirPath rest) := by
  simp [State.takeDirCommand, head, own, joined]

theorem takeStoreCommand_of_head {rest : List StoreItem} (own : c.isFor h k args = true)
    (head : takeStoreItem s.store.path = some (.command c, rest)) :
    s.takeStoreCommand h k args = some (c.id, s.setStorePath rest) := by
  simp [State.takeStoreCommand, head, own]

theorem takeTransferCommand_of_head {rest : List StoreItem} (own : c.isFor h k [] = true)
    (head : takeStoreItem s.store.path = some (.command c, rest)) (joined : (s.dir.joined.get h).isSome = true)
    (same : s.dir.joined.get h = s.store.joined.get h) : s.takeTransferCommand h k = some (c.id, s.setStorePath rest) := by
  rw [State.takeTransferCommand, if_pos ⟨joined, same⟩, takeStoreCommand_of_head own head]

theorem takeNoticeCommand_of_head {rest : List PathItem} (own : c.isFor h k args = true)
    (head : s.notice.path = .command c :: rest) : s.takeNoticeCommand h k args = some (c.id, s.setNoticePath rest) := by
  simp [State.takeNoticeCommand, head, own]

theorem takeSettingsCommand_of_head {rest : List PathItem} (own : c.isFor h k args = true)
    (head : s.settings.path = .command c :: rest) : s.takeSettingsCommand h k args = some (c.id, s.setSettingsPath rest) := by
  simp [State.takeSettingsCommand, head, own]

theorem takeAdmittedEvict_of_admitted {target : Word} (own : c.isFor h .evict [target] = true)
    (admitted : s.presence.evicting.get h = some c) : s.takeAdmittedEvict h target = some (c.id, s.setEvicting h none) := by
  simp [State.takeAdmittedEvict, admitted, own]

/-- The presence unit's taking of a command from a port, in one update (R4, R5, R111). -/
theorem taken_passParked (s : State) (h : HostId) : ((s.takeWritten h).reloadTerm h).passParked h = { s with
    ports := upd s.ports h { s.port h with unadmitted := none, parked := [] }
    presence := if (s.record h).state = .joined
      then { s.presence with records := upd s.presence.records h { s.record h with term := some s.settings.presenceTerm } }
      else s.presence
    store := { s.store with path := s.store.path ++ (s.port h).parked.map (StoreItem.pay h) } } := by
  have port : (s.takeWritten h).port h = { s.port h with unadmitted := none } := State.setPort_port_same ..
  unfold State.reloadTerm
  by_cases joined : (s.record h).state = .joined
  · rw [if_pos joined, State.takeWritten_record, if_pos joined, State.passParked, setRecord_port, port]
    show State.mk _ (upd (upd s.ports h _) h _) _ _ _ _ _ _ _ = _
    rw [upd_upd]
    rfl
  · rw [State.takeWritten_record, if_neg joined, if_neg joined, State.passParked, port]
    show State.mk _ (upd (upd s.ports h _) h _) _ _ _ _ _ _ _ = _
    rw [upd_upd]
    rfl

theorem takePresenceCommand_of_written (own : c.isFor h k args = true) (written : (s.port h).unadmitted = some c)
    (online : (s.record h).state ≠ .offline) (clear : s.presence.evicting.get h = none) :
    s.takePresenceCommand h k args = some (c.id, ((s.takeWritten h).reloadTerm h).passParked h) := by
  simp [State.takePresenceCommand, State.takeFromPort, clear, written, own, online]

end

/-- Settles O4: the first command on a path fits its own row, and each block takes it. -/
theorem firstCommandOnPathIsTaken : Obligations.FirstCommandOnPathIsTaken := by
  intro s c h k args host code words
  have own := Command.isFor_of_args host code words
  refine ⟨fun rest head joined => takeDirCommand_of_head own head joined, fun rest head =>
    ⟨takeStoreCommand_of_head own head, fun none joined same => ?_⟩, fun rest head => takeNoticeCommand_of_head own head,
    fun rest head => takeSettingsCommand_of_head own head, fun target admitted evict arg => ?_, fun written online clear => ?_⟩
  · rw [none] at own
    exact takeTransferCommand_of_head own head joined same
  · rw [evict, arg] at own
    exact takeAdmittedEvict_of_admitted own admitted
  · rw [takePresenceCommand_of_written own written online clear, taken_passParked]

/-! ## Device reset (R19) -/

/-- Settles O5: the values of device reset one by one, and the release as `State.released` gives it. -/
theorem deviceResetAndRelease : Obligations.DeviceResetAndRelease := by
  refine ⟨fun s => ⟨s.deviceReset, rfl, rfl, rfl, rfl, fun h => ?_, fun l => vector_get_replicate .., fun d => vector_get_replicate ..,
    fun c => ⟨vector_get_replicate .., vector_get_replicate ..⟩, rfl, rfl, rfl, rfl, rfl, rfl, rfl, rfl, rfl, fun x => ?_, rfl, rfl, rfl,
    rfl, rfl⟩, fun s pins held => ⟨s.released pins, ?_, rfl, rfl, rfl, rfl, rfl, rfl, rfl, rfl, fun h => ⟨released_port s pins h, released_record s pins h⟩⟩⟩
  · rw [deviceReset_port]
    exact ⟨reset_record h, vector_get_replicate .., reset_wait h, vector_get_replicate .., vector_get_replicate .., reset_queue h,
      reset_space h, reset_stream h, vector_get_replicate .., reset_ring h, reset_lost h, vector_get_replicate .., vector_get_replicate ..,
      rfl, rfl, rfl, rfl⟩
  · cases x <;> rfl
  · show execResetnRelease pins s = _
    rw [execResetnRelease, if_pos held]
    rfl

/-! ## A departure raised (R15, R16) -/

/-- The state in which a departure has been recorded and announced, and is still to be told. -/
def State.departureAnnounced (s : State) (h : HostId) (cause : DepartureCause) (st : PresenceState)
    (fence : Option FenceCause) : State :=
  (s.setRecord h ⟨st, (s.record h).session, none, fence⟩).announce (.departure h cause (s.record h).session)

/-- The departure delivered to the port, unless a port reset is its cause (R175, R176). -/
def State.deliverDeparture (s : State) (h : HostId) (cause : DepartureCause) : State :=
  if cause = .portReset then s else s.setPort h { s.port h with departures := (s.port h).departures ++ [cause] }

theorem State.raiseDeparture_eq (s : State) (h : HostId) (cause : DepartureCause) (st : PresenceState)
    (fence : Option FenceCause) : s.raiseDeparture h cause st fence =
      let u := (s.departureAnnounced h cause st fence).deliverDeparture h cause
      { u with notice := { u.notice with offers := u.offersAfterTelling h (.peerDeparted h cause) allHosts } } :=
  State.offerPeers_eq ..

theorem State.deliverDeparture_eq (s : State) (h : HostId) (cause : DepartureCause) :
    s.deliverDeparture h cause = { s with ports := (s.deliverDeparture h cause).ports } := by
  unfold State.deliverDeparture
  split <;> rfl

theorem State.deliverDeparture_port (s : State) (h : HostId) (cause : DepartureCause) :
    (s.deliverDeparture h cause).port h = if cause = .portReset then s.port h
      else { s.port h with departures := (s.port h).departures ++ [cause] } := by
  unfold State.deliverDeparture
  split
  · rfl
  · exact State.setPort_port_same ..

theorem State.deliverDeparture_port_ne (s : State) (h : HostId) (cause : DepartureCause) {g : HostId} (ne : g ≠ h) :
    (s.deliverDeparture h cause).port g = s.port g := by
  unfold State.deliverDeparture
  split
  · rfl
  · exact State.setPort_port_ne _ _ _ _ ne.symm

theorem departureRaised (s : State) (h : HostId) (cause : DepartureCause) (st : PresenceState) (fence : Option FenceCause) :
    DepartureRaised h cause st fence s (s.raiseDeparture h cause st fence) := by
  have port := (s.departureAnnounced h cause st fence).deliverDeparture_port h cause
  have otherPorts := fun g => (s.departureAnnounced h cause st fence).deliverDeparture_port_ne h cause (g := g)
  rw [State.raiseDeparture_eq]
  rw [State.deliverDeparture_eq] at port otherPorts ⊢
  generalize ((s.departureAnnounced h cause st fence).deliverDeparture h cause).ports = ports at port otherPorts ⊢
  have records : ∀ g, g ≠ h → (s.departureAnnounced h cause st fence).record g = s.record g := fun g ne =>
    State.setRecord_record_ne _ _ _ _ ne.symm
  refine ⟨State.setRecord_record_same .., records, rfl, rfl, rfl, rfl, rfl, fun g ne joined => ?_, fun g other => ?_, port, otherPorts,
    rfl, rfl, rfl, rfl⟩
  all_goals
    dsimp only
    rw [State.offersAfterTelling_allHosts, Vector.get_ofFn]
  · rw [if_pos ⟨ne, (congrArg (·.state) (records g ne)).trans joined⟩]
    exact congrArg (fun r : PresenceRecord => s.notice.offers.get g ++ [(⟨.peerDeparted h cause, some r.session⟩ : Offer)]) (records g ne)
  · refine if_neg fun told => ?_
    obtain ⟨ne, joined⟩ := told
    have same := (congrArg (·.state) (records g ne)).symm.trans joined
    exact other.elim ne fun away => away same

/-! ## PRSTn (R18, R176) -/

/-- A departure raised by a port reset is not delivered to the port, so the pin may be set before it or after. -/
theorem raiseDeparture_setPort (s : State) (h : HostId) (p : Port) (st : PresenceState) (fence : Option FenceCause) :
    (s.setPort h p).raiseDeparture h .portReset st fence = (s.raiseDeparture h .portReset st fence).setPort h p := by
  rw [State.raiseDeparture_eq, State.raiseDeparture_eq]
  rfl

theorem presenceReset_setPort (s : State) (h : HostId) (p : Port) :
    presenceReset h (s.setPort h p) = (presenceReset h s).setPort h p := by
  unfold presenceReset
  rw [show (s.setPort h p).record h = s.record h from rfl]
  split
  · exact raiseDeparture_setPort ..
  all_goals rfl

theorem presenceReset_of_joined {s : State} {h : HostId} (joined : (s.record h).state = .joined) :
    presenceReset h s = s.raiseDeparture h .portReset .offline none := by
  simp [presenceReset, joined]

theorem presenceReset_of_not_joined {s : State} {h : HostId} (other : (s.record h).state ≠ .joined) :
    presenceReset h s = s.setRecord h ⟨.offline, (s.record h).session, none, none⟩ := by
  unfold presenceReset
  split
  · next joined => exact absurd joined other
  all_goals rfl

/-- The assertion of PRSTn while RESETn is released: the presence unit's part, the port's, and the PAY words withdrawn. -/
theorem exec_prstnAssert_of_released {s : State} {h : HostId} (released : s.resetn = false) (high : (s.port h).prstn = false) :
    exec (.prstnAssert h) s = .next { presenceReset h s with
      ports := upd (presenceReset h s).ports h (Port.portReset { s.port h with prstn := true })
      store := { (presenceReset h s).store with path := withdrawPay h (presenceReset h s).store.path } } := by
  show execPrstnAssert h s = _
  simp only [execPrstnAssert, high, Bool.false_eq_true, if_false, released]
  rw [portReset, presenceReset_setPort, State.setPort_port_same]
  show Host.Outcome.next (State.mk _ (upd (upd _ h _) h _) _ _ _ _ _ _ _) = _
  rw [upd_upd]
  rfl

/-- The window cleared and a command in flight orphaned; one not yet taken is withdrawn (R176). -/
theorem Port.portReset_eq (p : Port) : p.portReset = { p with
    args := [], reply := Vector.replicate 8 0#16, replyPos := 0, inFlight := none
    replyReady := false, overrun := false, mask := ⟨false, false, false⟩, unadmitted := none, parked := []
    orphaned := match p.inFlight with
      | some id => if p.unadmitted = none then p.orphaned ++ [id] else p.orphaned
      | none => p.orphaned } := by
  unfold Port.portReset
  cases p.inFlight <;> cases p.unadmitted <;> rfl

theorem exec_prstnRelease_of_released {s : State} {h : HostId} (released : s.resetn = false) (low : (s.port h).prstn = true) :
    exec (.prstnRelease h) s = .next
      ((s.setPort h { s.port h with prstn := false }).setRecord h { s.record h with state := .unjoined }) := by
  show execPrstnRelease h s = _
  rw [execPrstnRelease, if_pos low]
  dsimp only
  rw [if_neg (by simp [released])]
  rfl

/-- Settles O6: the assertion by whether the host was JOINED, the release by the record it leaves. -/
theorem portReset_holds : Obligations.PortReset := by
  intro s h released
  refine ⟨fun high => ⟨presenceReset h s, fun joined => ?_, presenceReset_of_not_joined, ?_⟩, fun low => ?_⟩
  · rw [presenceReset_of_joined joined]
    exact departureRaised ..
  · rw [exec_prstnAssert_of_released released high, Port.portReset_eq]
    rfl
  · rw [exec_prstnRelease_of_released released low]
    rfl

/-! ## Admission (R4) -/

section
variable {s : State} {h : HostId} {c : Command}

theorem takeFromPort_of_written {want : Command → Bool} (written : (s.port h).unadmitted = some c)
    (online : (s.record h).state ≠ .offline) (wanted : want c = true) :
    s.takeFromPort h want = some (c, (s.takeWritten h).reloadTerm h) := by
  simp [State.takeFromPort, written, online, wanted]

theorem exec_commandAdmission_of_refuse {st : Status} (written : (s.port h).unadmitted = some c)
    (online : (s.record h).state ≠ .offline) (verdict : admission (decodeCommand c.code) (s.record h).state = .refuse st) :
    exec (.commandAdmission h) s = .next ((((s.takeWritten h).reloadTerm h).passParked h).reply h c.id st []) := by
  show execCommandAdmission h s = _
  rw [execCommandAdmission, takeFromPort_of_written written online rfl]
  dsimp only
  rw [verdict]

theorem exec_commandAdmission_of_pass {o : Owner} (written : (s.port h).unadmitted = some c)
    (online : (s.record h).state ≠ .offline) (verdict : admission (decodeCommand c.code) (s.record h).state = .pass o)
    (elsewhere : o ≠ .presenceUnit) :
    exec (.commandAdmission h) s = .next ((((s.takeWritten h).reloadTerm h).passCommand c o).passParked h) := by
  show execCommandAdmission h s = _
  rw [execCommandAdmission, takeFromPort_of_written written online rfl]
  dsimp only
  rw [verdict]
  cases o with
  | presenceUnit => exact absurd rfl elsewhere
  | _ => rfl

theorem exec_commandAdmission_of_evict (written : (s.port h).unadmitted = some c) (joined : (s.record h).state = .joined)
    (evict : decodeCommand c.code = some .evict) (clear : s.presence.evicting.get h = none) :
    exec (.commandAdmission h) s
      = .next ((((s.takeWritten h).reloadTerm h).setEvicting h (some c)).passParked h) := by
  have verdict : admission (decodeCommand c.code) (s.record h).state = .pass .presenceUnit := by rw [evict, joined]; rfl
  show execCommandAdmission h s = _
  rw [execCommandAdmission, takeFromPort_of_written written (by simp [joined]) rfl]
  dsimp only
  rw [verdict]
  simp [keepOwnCommand, evict, clear]

theorem exec_unknownCommandCode_of_refuse {st : Status} (written : (s.port h).unadmitted = some c)
    (online : (s.record h).state ≠ .offline) (unknown : decodeCommand c.code = none)
    (verdict : admission none (s.record h).state = .refuse st) :
    exec (.unknownCommandCode h c.code) s
      = .next ((((s.takeWritten h).reloadTerm h).passParked h).reply h c.id st []) := by
  show execUnknownCommandCode h c.code s = _
  rw [execUnknownCommandCode, takeFromPort_of_written written online (by simp [unknown])]
  dsimp only
  rw [verdict]

theorem reloadTerm_record (s : State) (h : HostId) : (s.reloadTerm h).record h =
    if (s.record h).state = .joined then { s.record h with term := some s.settings.presenceTerm } else s.record h := by
  split
  · next joined => exact State.reloadTerm_record_of_joined joined
  · next other => rw [State.reloadTerm_of_not_joined other]

/-- A command that only a JOINED host may give is refused to the others by their state (R4). -/
theorem admission_of_joined_only {k : CommandKind} (join : k ≠ .join) (status : k ≠ .status) (readParam : k ≠ .readParam)
    (deviceStatus : k ≠ .deviceStatus) (st : PresenceState) : admission (some k) st = joinedOnly st (commandOwner k) := by
  cases k <;> first | rfl | contradiction

end

/-- Settles O7: R4's verdict command by command, and what each verdict leads to. -/
theorem admissionTable : Obligations.AdmissionTable := by
  intro s h c written online t refused passed toSettings
  have refuse {st : Status} := exec_commandAdmission_of_refuse (st := st) written online
  have pass {o : Owner} := exec_commandAdmission_of_pass (o := o) written online
  refine ⟨reloadTerm_record (s.takeWritten h) h, fun k code => ⟨fun join status readParam deviceStatus => ⟨fun unjoined => ?_, fun fenced => ?_⟩,
    fun settings => ?_, fun joined => ⟨fun own => ?_, fun own => ?_, fun own => ?_, fun own => ?_, fun evict clear => ?_, fun join => ?_⟩⟩, fun unknown i mem => ?_⟩
  · exact refuse (by rw [code, admission_of_joined_only join status readParam deviceStatus, unjoined]; rfl)
  · exact refuse (by rw [code, admission_of_joined_only join status readParam deviceStatus, fenced]; rfl)
  · exact pass (o := .settings) (by rw [code]; rcases settings with rfl | rfl <;> rfl) nofun
  · exact pass (o := .directory) (by rw [code, joined]; fin_cases own <;> rfl) nofun
  · exact pass (o := .store) (by rw [code, joined]; fin_cases own <;> rfl) nofun
  · exact pass (o := .noticeUnit) (by rw [code, joined, own]; rfl) nofun
  · exact pass (o := .settings) (by rw [code, joined]; rcases own with rfl | rfl <;> rfl) nofun
  · exact exec_commandAdmission_of_evict written joined (by rw [code, evict]) clear
  · exact refuse (by rw [code, joined, join]; rfl)
  · have verdict {st : Status} (refused : admission none (s.record h).state = .refuse st) :
        exec i s = .next ((t.passParked h).reply h c.id st []) := by
      rcases List.mem_cons.mp mem with rfl | mem
      · exact refuse (by rw [unknown, refused])
      · rw [List.mem_singleton.mp mem]
        exact exec_unknownCommandCode_of_refuse written online unknown refused
    exact ⟨fun e => verdict (by rw [e]; rfl), fun e => verdict (by rw [e]; rfl), fun e => verdict (by rw [e]; rfl)⟩

/-! ## LEAVE and the expiry of a term (R10, R14) -/

section
variable {s t : State} {h : HostId} {id : Nat}

theorem exec_leave_of_refuse {st : Status} (taken : s.takePresenceCommand h .leave [] = some (id, t))
    (verdict : admission (some .leave) (s.record h).state = .refuse st) :
    exec (.leave h) s = .next (t.reply h id st []) := by
  simp [exec, execLeave, taken, verdict]

theorem exec_leave_of_pass {o : Owner} (taken : s.takePresenceCommand h .leave [] = some (id, t))
    (verdict : admission (some .leave) (s.record h).state = .pass o) :
    exec (.leave h) s = .next ((t.raiseDeparture h .left .unjoined none).sendReply h
      ⟨id, [Status.ok.code, word (s.record h).session], true⟩) := by
  simp [exec, execLeave, taken, verdict, (takePresenceCommand_routine taken).1.session h]

theorem exec_termExpiry_of_due (joined : (s.record h).state = .joined) (due : (s.record h).term = some 0) :
    exec (.termExpiry h) s = .next (s.raiseDeparture h .lapsed .fenced (some .lapsed)) := if_pos ⟨joined, due⟩

end

/-- Settles O9: LEAVE by R4's verdict; the departures are `departureRaised`. -/
theorem leaveAndExpiryEndSession : Obligations.LeaveAndExpiryEndSession := by
  refine ⟨fun s t h id taken => ⟨fun unjoined => ?_, fun fenced => ?_, fun joined => ⟨_, departureRaised t h .left .unjoined none, ?_⟩⟩,
    fun s h joined due => ⟨_, exec_termExpiry_of_due joined due, departureRaised s h .lapsed .fenced (some .lapsed)⟩⟩
  · exact exec_leave_of_refuse taken (by rw [unjoined]; rfl)
  · exact exec_leave_of_refuse taken (by rw [fenced]; rfl)
  · exact exec_leave_of_pass (o := .presenceUnit) taken (by rw [joined]; rfl)

/-! ## EVICT (R11, R80) -/

section
variable {s t : State} {h g : HostId} {id : Nat} {target : Word}

theorem parseHost_of_toNat (names : target.toNat = g.val) : parseHost target = some g := by
  simp [parseHost, names]

theorem parseHost_of_unknown (unknown : 4 ≤ target.toNat) : parseHost target = none := by
  simp [parseHost, unknown]

theorem exec_evict_of_admitted (taken : s.takeAdmittedEvict h target = some (id, t)) :
    exec (.evict h target) s = .next (evictTaken h id target t) := by
  simp [exec, execEvict, taken]

theorem takeAdmittedEvict_of_clear (clear : s.presence.evicting.get h = none) : s.takeAdmittedEvict h target = none := by
  simp [State.takeAdmittedEvict, clear]

theorem exec_evict_of_refuse {st : Status} (taken : s.takePresenceCommand h .evict [target] = some (id, t))
    (verdict : admission (some .evict) (s.record h).state = .refuse st) :
    exec (.evict h target) s = .next (t.reply h id st []) := by
  simp [exec, execEvict, takeAdmittedEvict_of_clear (takePresenceCommand_some taken).1, taken, verdict]

theorem exec_evict_of_joined (taken : s.takePresenceCommand h .evict [target] = some (id, t))
    (joined : (s.record h).state = .joined) : exec (.evict h target) s = .next (evictTaken h id target t) := by
  simp [exec, execEvict, takeAdmittedEvict_of_clear (takePresenceCommand_some taken).1, taken, joined, admission, joinedOnly,
    commandOwner]

/-- The presence unit goes on with the same EVICT when an entry has been corrected. -/
theorem takeAdmittedEvict_corrected (l : LeaseId) (taken : s.takeAdmittedEvict h target = some (id, t)) :
    ((s.putEntry l (s.entry l)).raiseCorrected).takeAdmittedEvict h target
      = some (id, (t.putEntry l (t.entry l)).raiseCorrected) := by
  obtain ⟨c, admitted, own, rfl, rfl⟩ := takeAdmittedEvict_some taken
  exact takeAdmittedEvict_of_admitted own admitted

/-- The presence unit takes the same command when an entry has been corrected. -/
theorem takePresenceCommand_corrected {k : CommandKind} {args : List Word} (l : LeaseId)
    (taken : s.takePresenceCommand h k args = some (id, t)) :
    ((s.putEntry l (s.entry l)).raiseCorrected).takePresenceCommand h k args
      = some (id, (t.putEntry l (t.entry l)).raiseCorrected) := by
  obtain ⟨clear, c, written, own, online, rfl, rfl⟩ := takePresenceCommand_some taken
  rw [takePresenceCommand_of_written (s := (s.putEntry l (s.entry l)).raiseCorrected) own written online clear, taken_passParked,
    taken_passParked]
  rfl

variable (id target)

theorem evictTaken_of_correctable (flawed : (t.dir.entries.get 0).chk = .correctable) :
    evictTaken h id target t = evictTaken h id target ((t.putEntry 0 (t.entry 0)).raiseCorrected) := by
  simp only [evictTaken, charterCheck_of_correctable flawed]

theorem evictTaken_of_uncorrectable (flawed : (t.dir.entries.get 0).chk = .uncorrectable) :
    evictTaken h id target t = ((rebuildEntry 0 t).dirFinding 0).reply h id .damaged [] := by
  simp only [evictTaken, charterCheck_of_uncorrectable flawed]

theorem evictTaken_of_not_acts (sound : EntrySound t 0) (other : (t.entry 0).acts h = false) :
    evictTaken h id target t = t.reply h id .charter [] := by
  simp only [evictTaken, charterCheck_of_not_acts sound other]

variable {target}

theorem evictTaken_of_unknown (sound : EntrySound t 0) (acts : (t.entry 0).acts h = true) (unknown : 4 ≤ target.toNat) :
    evictTaken h id target t = t.reply h id .badArg [] := by
  simp only [evictTaken, charterCheck_of_acts sound acts, parseHost_of_unknown unknown]

theorem evictTaken_of_unfit (sound : EntrySound t 0) (acts : (t.entry 0).acts h = true) (names : target.toNat = g.val)
    (unfit : g = h ∨ (t.record g).state ≠ .joined) : evictTaken h id target t = t.reply h id .badArg [] := by
  simp only [evictTaken, charterCheck_of_acts sound acts, parseHost_of_toNat names, if_pos unfit]

theorem evictTaken_of_fit (sound : EntrySound t 0) (acts : (t.entry 0).acts h = true) (names : target.toNat = g.val)
    (other : g ≠ h) (joined : (t.record g).state = .joined) : evictTaken h id target t =
      (t.raiseDeparture g .evicted .fenced (some .evicted)).reply h id .ok [word g.val, word (t.record g).session] := by
  have fit : ¬ (g = h ∨ (t.record g).state ≠ .joined) := by simp [other, joined]
  simp only [evictTaken, charterCheck_of_acts sound acts, parseHost_of_toNat names, if_neg fit]

end

/-- Settles O10: an EVICT that is decided, whichever way it came, comes to one case of `evictTaken`. -/
theorem evictFencesTarget : Obligations.EvictFencesTarget := by
  intro s t h target id run decided
  have decide (state : ∀ g, (t.record g).state = (s.record g).state) (session : ∀ g, (t.record g).session = (s.record g).session)
      (runs : run = .next (evictTaken h id target t))
      (corrected : exec (.evict h target) ((s.putEntry 0 (s.entry 0)).raiseCorrected)
        = .next (evictTaken h id target ((t.putEntry 0 (t.entry 0)).raiseCorrected))) : decided := by
    refine ⟨fun flawed => ?_, fun flawed => ?_, fun sound => ⟨fun other => ?_, fun acts => ⟨fun unknown => ?_,
      fun g names => ⟨fun unfit => ?_, fun other joined => ⟨_, departureRaised t g .evicted .fenced (some .evicted), ?_⟩⟩⟩⟩⟩
    · rw [runs, corrected, evictTaken_of_correctable id target flawed]
    · rw [runs, evictTaken_of_uncorrectable id target flawed]
    · rw [runs, evictTaken_of_not_acts id target sound other]
    · rw [runs, evictTaken_of_unknown id sound acts unknown]
    · rw [runs, evictTaken_of_unfit id sound acts names (by rwa [state])]
    · rw [runs, evictTaken_of_fit id sound acts names other (by rwa [state]), session]
  refine ⟨fun taken => ?_, fun taken => ⟨fun unjoined => ?_, fun fenced => ?_, fun joined => ?_⟩⟩
  · obtain ⟨c, -, -, -, same⟩ := takeAdmittedEvict_some taken
    exact decide (fun g => by rw [same]; rfl) (fun g => by rw [same]; rfl) (exec_evict_of_admitted taken)
      (exec_evict_of_admitted (takeAdmittedEvict_corrected 0 taken))
  · exact exec_evict_of_refuse taken (by rw [unjoined]; rfl)
  · exact exec_evict_of_refuse taken (by rw [fenced]; rfl)
  · have routine := (takePresenceCommand_routine taken).1
    exact decide routine.state routine.session (exec_evict_of_joined taken joined)
      (exec_evict_of_joined (takePresenceCommand_corrected 0 taken) joined)

end Sys2Proof.Machine
end

section
/-! PROOF. Codes and headers (O3), READ_PARAM (O44), the error counts and DEVICE_STATUS (O45). -/

namespace Sys2Proof.Machine

open Sys2Proof

/-! ## Codes (R173) -/

theorem decodeCommand_code (k : CommandKind) : decodeCommand k.code = some k := by
  cases k <;> rfl

theorem code_of_decodeCommand {w : Word} {k : CommandKind} (e : decodeCommand w = some k) : w = k.code := by
  unfold decodeCommand at e
  split at e
  all_goals cases e
  all_goals exact BitVec.eq_of_toNat_eq ‹_›

/-! ## Header bytes (R179) -/

theorem decodeHeader_encodeHeader (read : Bool) (loc : Loc) : decodeHeader (encodeHeader read loc) = some (read, loc) := by
  cases read <;> cases loc <;> rfl

theorem decodeLoc_number (b : BitVec 3) : (decodeLoc b).number = b.toNat := by
  have below := b.isLt
  unfold decodeLoc
  split <;> simp_all [Loc.number]
  omega

/-- A byte whose bits 6 to 3 are 0 is the one written for its direction and its location. -/
theorem encodeHeader_of_fields {b : Byte} (middle : b.extractLsb' 3 4 = 0#4) :
    encodeHeader (b.getLsbD 7) (decodeLoc (b.extractLsb' 0 3)) = b := by
  have bits := congrArg BitVec.toNat middle
  rw [BitVec.extractLsb'_toNat] at bits
  have below := b.isLt
  have top : (if b.getLsbD 7 = true then 128 else 0) = 128 * (b.toNat / 128) := by
    rw [BitVec.getLsbD, Nat.testBit_eq_decide_div_mod_eq]
    simp only [decide_eq_true_eq]
    split <;> omega
  refine BitVec.eq_of_toNat_eq ?_
  rw [encodeHeader, top, decodeLoc_number, BitVec.toNat_ofNat, BitVec.extractLsb'_toNat]
  simp only [Nat.shiftRight_eq_div_pow, BitVec.toNat_ofNat] at bits ⊢
  omega

theorem decodeHeader_none_iff (b : Byte) : decodeHeader b = none ↔ b.extractLsb' 3 4 ≠ 0#4 := by
  unfold decodeHeader
  split <;> simp_all

/-- Settles O3: both decoders are inverse to the encoders. -/
theorem codesAndHeadersDecode : Obligations.CodesAndHeadersDecode := by
  refine ⟨fun w k => ⟨code_of_decodeCommand, fun e => e ▸ decodeCommand_code k⟩, fun b read loc =>
    ⟨fun e => ?_, fun e => e ▸ decodeHeader_encodeHeader read loc⟩, decodeHeader_none_iff⟩
  unfold decodeHeader at e
  split at e
  · next middle =>
    cases e
    exact (encodeHeader_of_fields middle).symm
  · cases e

/-! ## READ_PARAM (R151) -/

section
variable {s t : State} {h : HostId} {id : Nat} {param : Word}

theorem exec_readParam_of_taken (taken : s.takeSettingsCommand h .readParam [param] = some (id, t)) :
    exec (.readParam h param) s = .next (readParamTaken h id param t) := by
  simp [exec, execReadParam, taken]

theorem takeSettingsCommand_settings {k : CommandKind} {args : List Word}
    (taken : s.takeSettingsCommand h k args = some (id, t)) :
    (∀ x, t.setting x = s.setting x) ∧ t.settings.corrected = s.settings.corrected
      ∧ t.settings.uncorrected = s.settings.uncorrected := by
  have routine := takeSettingsCommand_routine taken
  exact ⟨routine.setting, routine.corrected, routine.uncorrected⟩

theorem readParamTaken_of_setting {x : Setting} (h : HostId) (id : Nat) (names : param.toNat = x.number) (t : State) :
    readParamTaken h id param t
      = t.reply h id .ok [word x.number, word (t.setting x), word x.low, word x.high, word x.default] := by
  simp only [readParamTaken, parseSetting_of_toNat names]

end

/-- Settles O44: setting by setting. -/
theorem readParamReportsSetting : Obligations.ReadParamReportsSetting := by
  intro s t h param id taken
  obtain ⟨settings, -⟩ := takeSettingsCommand_settings taken
  have reports (x : Setting) (names : param.toNat = x.number) : exec (.readParam h param) s = .next
      (t.reply h id .ok [word x.number, word (s.setting x), word x.low, word x.high, word x.default]) := by
    rw [exec_readParam_of_taken taken, readParamTaken_of_setting h id names, settings]
  refine ⟨fun unknown => ?_, fun e => reports .tickDiv (e ▸ rfl), fun e => reports .presenceTerm (e ▸ rfl),
    fun e => reports .descQuota (e ▸ rfl), fun e => reports .cellQuota (e ▸ rfl), fun e => reports .inboundLimit (e ▸ rfl),
    fun e => reports .spaceHold (e ▸ rfl)⟩
  rw [exec_readParam_of_taken taken, readParamTaken, parseSetting_of_unknown unknown]

/-! ## The read of the whole cell map (R155, R162) -/

/-- The read of this cell map entry finds two bits in error. -/
def State.mapLost (s : State) (c : CellId) : Bool := decide ((s.store.map.get c).chk = .uncorrectable)

/-- The read of this cell map entry finds one bit in error. -/
def State.mapMended (s : State) (c : CellId) : Bool := decide ((s.store.map.get c).chk = .correctable)

/-- The state with the fields replaced that a read of the cell map writes. -/
def State.withScan (s : State) (map : Vector (Coded MapEntry) 128) (offers : PerHost (List Offer)) (mended lost : Nat) : State :=
  { s with
    store := { s.store with map := map }
    notice := { s.notice with offers := offers }
    settings := { s.settings with correctedDue := mended, uncorrectedDue := lost } }

/-- The state after the read of these cell map entries. -/
def State.mapScanned (s : State) (cs : List CellId) : State := s.withScan
  (Vector.ofFn fun c => if c ∈ cs then ⟨if s.mapLost c = true then .retired else s.mapEntry c, .sound⟩ else s.store.map.get c)
  (Vector.ofFn fun g => s.notice.offers.get g ++ if (s.store.joined.get g).isSome = true
    then (cs.filter s.mapLost).map fun c => ⟨.fault .cellMap c.val, s.store.joined.get g⟩ else [])
  (s.settings.correctedDue + cs.countP s.mapMended) (s.settings.uncorrectedDue + cs.countP s.mapLost)

theorem mapScanned_nil (s : State) : s.mapScanned [] = s := by
  have map : (Vector.ofFn fun c => s.store.map.get c) = s.store.map := by
    ext c lt
    simp [Vector.get_eq_getElem]
  have offers : (Vector.ofFn fun g => s.notice.offers.get g) = s.notice.offers := by
    ext c lt
    simp [Vector.get_eq_getElem]
  simp only [State.mapScanned, List.not_mem_nil, if_false, List.filter_nil, List.map_nil, ite_self, List.append_nil,
    List.countP_nil, Nat.add_zero, map, offers]
  rfl

theorem withScan_congr {s : State} {map map' : Vector (Coded MapEntry) 128} {offers offers' : PerHost (List Offer)}
    {mended mended' lost lost' : Nat} (a : map = map') (b : offers = offers') (c : mended = mended') (d : lost = lost') :
    s.withScan map offers mended lost = s.withScan map' offers' mended' lost' := by
  rw [a, b, c, d]

theorem withScan_readMapEntry (s : State) (c : CellId) (map : Vector (Coded MapEntry) 128) (offers : PerHost (List Offer))
    (mended lost : Nat) : (readMapEntry s c).withScan map offers mended lost = s.withScan map offers mended lost := by
  rcases readMapEntry_cases s c with ⟨-, r⟩ | ⟨-, r⟩ | ⟨-, r⟩ <;> rw [r]
  · rfl
  · rw [State.storeFinding_eq]
    rfl

theorem readMapEntry_joined (s : State) (c : CellId) (g : HostId) :
    (readMapEntry s c).store.joined.get g = s.store.joined.get g := by
  rw [(readMapEntry_mapRead s c).served.storeJoined]

theorem readMapEntry_map_ne (s : State) {c c' : CellId} (ne : c ≠ c') :
    (readMapEntry s c).store.map.get c' = s.store.map.get c' := by
  rcases readMapEntry_cases s c with ⟨-, r⟩ | ⟨-, r⟩ | ⟨-, r⟩ <;> rw [r]
  · exact upd_get_ne _ _ ne
  · rw [State.storeFinding_eq]
    exact upd_get_ne _ _ ne

theorem readMapEntry_map_same (s : State) (c : CellId) : (readMapEntry s c).store.map.get c =
    ⟨if s.mapLost c = true then .retired else s.mapEntry c, .sound⟩ := by
  rcases readMapEntry_cases s c with ⟨chk, r⟩ | ⟨chk, r⟩ | ⟨chk, r⟩ <;> rw [r]
  · rw [if_neg (by simp [State.mapLost, chk]), ← chk]
    rfl
  · rw [if_neg (by simp [State.mapLost, chk])]
    exact upd_get_same ..
  · rw [if_pos (by simp [State.mapLost, chk]), State.storeFinding_eq]
    exact upd_get_same ..

theorem readMapEntry_offers (s : State) (c : CellId) (g : HostId) : (readMapEntry s c).notice.offers.get g =
    s.notice.offers.get g ++ if (s.store.joined.get g).isSome = true
      then ([c].filter s.mapLost).map fun c => ⟨.fault .cellMap c.val, s.store.joined.get g⟩ else [] := by
  rcases readMapEntry_cases s c with ⟨chk, r⟩ | ⟨chk, r⟩ | ⟨chk, r⟩ <;> rw [r]
  · simp [State.mapLost, chk]
  · simp [State.mapLost, chk, State.raiseCorrected]
  · rw [State.storeFinding_eq, withFault, Vector.get_ofFn]
    simp [State.mapLost, chk, State.putMap]
    congr

theorem readMapEntry_due (s : State) (c : CellId) :
    (readMapEntry s c).settings.correctedDue = s.settings.correctedDue + [c].countP s.mapMended
      ∧ (readMapEntry s c).settings.uncorrectedDue = s.settings.uncorrectedDue + [c].countP s.mapLost := by
  rcases readMapEntry_cases s c with ⟨chk, r⟩ | ⟨chk, r⟩ | ⟨chk, r⟩ <;> rw [r]
  · simp [State.mapLost, State.mapMended, chk]
  · simp [State.mapLost, State.mapMended, chk, State.raiseCorrected]
  · rw [State.storeFinding_eq]
    simp [State.mapLost, State.mapMended, chk, withFault, State.putMap]

/-- What the read of one entry leaves for the reads of the others. -/
theorem mapScanned_readMapEntry (s : State) {c : CellId} {cs : List CellId} (fresh : c ∉ cs) :
    (readMapEntry s c).mapScanned cs = s.mapScanned (c :: cs) := by
  have others : ∀ c' ∈ cs, (readMapEntry s c).store.map.get c' = s.store.map.get c' := fun c' mem =>
    readMapEntry_map_ne s fun e => fresh (e ▸ mem)
  have lost : ∀ c' ∈ cs, (readMapEntry s c).mapLost c' = s.mapLost c' := fun c' mem => by
    rw [State.mapLost, others c' mem, State.mapLost]
  have mended : ∀ c' ∈ cs, (readMapEntry s c).mapMended c' = s.mapMended c' := fun c' mem => by
    rw [State.mapMended, others c' mem, State.mapMended]
  have mendedCount : cs.countP (readMapEntry s c).mapMended = cs.countP s.mapMended :=
    List.countP_congr fun c' mem => by rw [mended c' mem]
  have lostCount : cs.countP (readMapEntry s c).mapLost = cs.countP s.mapLost :=
    List.countP_congr fun c' mem => by rw [lost c' mem]
  rw [State.mapScanned, withScan_readMapEntry, State.mapScanned]
  refine withScan_congr (congrArg Vector.ofFn (funext fun c' => ?_)) (congrArg Vector.ofFn (funext fun g => ?_)) ?_ ?_
  · rcases eq_or_ne c c' with rfl | ne
    · rw [if_neg fresh, if_pos List.mem_cons_self, readMapEntry_map_same]
    · have member : c' ∈ c :: cs ↔ c' ∈ cs := by simp [ne.symm]
      by_cases mem : c' ∈ cs
      · rw [if_pos mem, if_pos (member.mpr mem), lost c' mem, State.mapEntry, others c' mem, State.mapEntry]
      · rw [if_neg mem, if_neg (mem ∘ member.mp), readMapEntry_map_ne s ne]
  · rw [readMapEntry_offers, readMapEntry_joined, List.filter_congr lost, List.append_assoc, ← List.singleton_append (l := cs),
      List.filter_append, List.map_append]
    split <;> simp
  · rw [(readMapEntry_due s c).1, mendedCount, ← List.singleton_append (l := cs),
      List.countP_append, Nat.add_assoc]
  · rw [(readMapEntry_due s c).2, lostCount, ← List.singleton_append (l := cs),
      List.countP_append, Nat.add_assoc]

theorem foldl_readMapEntry {cs : List CellId} (nodup : cs.Nodup) (s : State) : cs.foldl readMapEntry s = s.mapScanned cs := by
  induction cs generalizing s with
  | nil => exact (mapScanned_nil s).symm
  | cons c cs ih =>
    obtain ⟨fresh, nodup⟩ := List.nodup_cons.mp nodup
    rw [List.foldl_cons, ih nodup, mapScanned_readMapEntry s fresh]

/-- The read of the whole map in one update. -/
theorem readMap_eq (s : State) : readMap s = s.withScan
    (Vector.ofFn fun c => ⟨if s.mapLost c = true then .retired else s.mapEntry c, .sound⟩)
    (Vector.ofFn fun g => s.notice.offers.get g ++ if (s.store.joined.get g).isSome = true
      then (allCells.filter s.mapLost).map fun c => ⟨.fault .cellMap c.val, s.store.joined.get g⟩ else [])
    (s.settings.correctedDue + allCells.countP s.mapMended) (s.settings.uncorrectedDue + allCells.countP s.mapLost) := by
  have every : ∀ c, c ∈ allCells := List.mem_finRange
  rw [readMap, foldl_readMapEntry allCells_nodup]
  simp only [State.mapScanned, every, if_true]

/-! ## The error counts (R153, R154) -/

section
variable {s t : State} {h : HostId} {id : Nat}

theorem exec_clearCounts_of_taken (taken : s.takeSettingsCommand h .clearCounts [] = some (id, t)) :
    exec (.clearCounts h) s = .next (clearCountsTaken h id t) := by
  simp [exec, execClearCounts, taken]

variable (h id)

theorem clearCountsTaken_of_correctable (flawed : (t.dir.entries.get 0).chk = .correctable) :
    clearCountsTaken h id t = clearCountsTaken h id ((t.putEntry 0 (t.entry 0)).raiseCorrected) := by
  simp only [clearCountsTaken, charterCheck_of_correctable flawed]

theorem clearCountsTaken_of_uncorrectable (flawed : (t.dir.entries.get 0).chk = .uncorrectable) :
    clearCountsTaken h id t = ((rebuildEntry 0 t).dirFinding 0).reply h id .damaged [] := by
  simp only [clearCountsTaken, charterCheck_of_uncorrectable flawed]

theorem clearCountsTaken_of_not_acts (sound : EntrySound t 0) (other : (t.entry 0).acts h = false) :
    clearCountsTaken h id t = t.reply h id .charter [] := by
  simp only [clearCountsTaken, charterCheck_of_not_acts sound other]

theorem clearCountsTaken_of_acts (sound : EntrySound t 0) (acts : (t.entry 0).acts h = true) :
    clearCountsTaken h id t = ({ t with settings := { t.settings with corrected := 0, uncorrected := 0 } }).reply h id .ok
      [word t.settings.corrected, word t.settings.uncorrected] := by
  simp only [clearCountsTaken, charterCheck_of_acts sound acts]

end

/-! ## DEVICE_STATUS (R152) -/

/-- The bits of the joined host set are the hosts'. -/
theorem joinedSet_bits (a b c d : Bool) : let w := word ([if a then 1 else 0, if b then 2 else 0, if c then 4 else 0, if d then 8 else 0].sum)
    (w.getLsbD 0 = a ∧ w.getLsbD 1 = b ∧ w.getLsbD 2 = c ∧ w.getLsbD 3 = d) ∧ w.extractLsb' 4 12 = 0#12 := by
  revert a b c d
  decide

theorem joinedSet_eq (s : State) : joinedSet s = [if decide ((s.record 0).state = .joined) then 1 else 0,
    if decide ((s.record 1).state = .joined) then 2 else 0, if decide ((s.record 2).state = .joined) then 4 else 0,
    if decide ((s.record 3).state = .joined) then 8 else 0].sum := by
  simp only [decide_eq_true_eq]
  rfl

theorem joinedSet_getLsbD (s : State) (g : HostId) :
    (word (joinedSet s)).getLsbD g.val = decide ((s.record g).state = .joined) := by
  obtain ⟨⟨b0, b1, b2, b3⟩, -⟩ := joinedSet_bits (decide ((s.record 0).state = .joined)) (decide ((s.record 1).state = .joined))
    (decide ((s.record 2).state = .joined)) (decide ((s.record 3).state = .joined))
  rw [joinedSet_eq]
  fin_cases g
  · exact b0
  · exact b1
  · exact b2
  · exact b3

theorem exec_deviceStatus_of_taken {s t : State} {h : HostId} {id : Nat}
    (taken : s.takeSettingsCommand h .deviceStatus [] = some (id, t)) :
    exec (.deviceStatus h) s = .next ((readMap t).reply h id .ok (deviceStatusWords (readMap t))) := by
  simp [exec, execDeviceStatus, taken]

/-- Settles O45: the counts and CLEAR_COUNTS case by case, and the read of the map in one update. -/
theorem countsAndDeviceStatus : Obligations.CountsAndDeviceStatus := by
  refine ⟨fun s n due => ?_, fun s n due => ?_, fun s t h id taken => ?_, fun s t h id taken => ?_, readMap_eq⟩
  · simp only [exec, execCorrectedCount, due]
    rfl
  · simp only [exec, execUncorrectedCount, due]
    rfl
  · obtain ⟨-, corrected, uncorrected⟩ := takeSettingsCommand_settings taken
    rw [exec_clearCounts_of_taken taken]
    refine ⟨fun flawed => ?_, fun flawed => ?_, fun sound other => ?_, fun sound acts => ?_⟩
    · rw [exec_clearCounts_of_taken (takeSettingsCommand_corrected 0 taken), clearCountsTaken_of_correctable h id flawed]
    · rw [clearCountsTaken_of_uncorrectable h id flawed]
    · rw [clearCountsTaken_of_not_acts h id sound other]
    · rw [clearCountsTaken_of_acts h id sound acts, corrected, uncorrected]
  · have read := readMap_mapRead t
    have routine := takeSettingsCommand_routine taken
    have records (g : HostId) : (readMap t).record g = t.record g := read.served.record g
    refine ⟨word (joinedSet (readMap t)), ?_, fun g => ?_, ?_⟩
    · rw [exec_deviceStatus_of_taken taken, deviceStatusWords, read.served.settings, routine.corrected, routine.uncorrected, freeDescs]
      simp only [read.links.descs]
      rfl
    · rw [joinedSet_getLsbD, records, routine.state]
    · rw [joinedSet_eq]
      exact (joinedSet_bits ..).2

end Sys2Proof.Machine
end

section
/-! PROOF. The window of a port: writes (O47), reads (O48), replies (O49) and serial transactions (O50). -/

namespace Sys2Proof.Machine

open Sys2Proof

/-! ## Accesses (R166) -/

section
variable {s : State} {h : HostId} {loc : Loc} {act : State → State}

theorem windowWrite_of_reached (online : (s.record h).state ≠ .offline) (reached : s.reaches h false loc = true) :
    windowWrite h loc act s = act s := by
  simp [windowWrite, State.offline, reached, online]

theorem windowWrite_of_not (closed : (s.record h).state = .offline ∨ s.reaches h false loc = false) :
    windowWrite h loc act s = s := by
  rcases closed with off | missed
  · simp [windowWrite, State.offline, off]
  · simp [windowWrite, missed]

theorem windowRead_of_reached (online : (s.record h).state ≠ .offline) (reached : s.reaches h true loc = true) :
    windowRead h loc act s = act s := by
  simp [windowRead, State.offline, reached, online]

theorem windowRead_of_offline (off : (s.record h).state = .offline) (reached : s.reaches h true loc = true) :
    windowRead h loc act s = s.returnWord h 0#16 := by
  simp [windowRead, State.offline, reached, off]

theorem windowRead_of_missed (missed : s.reaches h true loc = false) : windowRead h loc act s = s := by
  simp [windowRead, missed]

end

/-! ## Writes (R169, R170) -/

theorem acceptCommand_of_busy {s : State} {h : HostId} (code : Word) (busy : (s.port h).busy = true) :
    acceptCommand h code s = s.setOverrun h := if_pos busy

theorem acceptCommand_of_free {s : State} {h : HostId} (code : Word) (free : (s.port h).busy = false) :
    acceptCommand h code s = s.setPort h { s.port h with
      args := [], reply := Vector.replicate 8 0#16, replyPos := 0, replyReady := false, inFlight := some (s.port h).nextId
      nextId := (s.port h).nextId + 1, unadmitted := some ⟨h, (s.port h).nextId, code, (s.port h).args⟩ } :=
  if_neg (by simp [free])

/-- Settles O47: each access by whether it takes place, and the frame by its length. -/
theorem windowWrites : Obligations.WindowWrites := by
  intro s h w overrun
  refine ⟨fun online => ⟨fun reached => ⟨fun short => ?_, fun full => ?_⟩, fun reached => ⟨fun busy => ?_, fun free =>
    ⟨(s.port h).nextId, ?_⟩⟩, fun reached => ?_⟩, fun _ => rfl, fun x mem closed => ?_⟩
  · exact congrArg Host.Outcome.next ((windowWrite_of_reached online reached).trans (if_pos short))
  · exact congrArg Host.Outcome.next ((windowWrite_of_reached online reached).trans (if_neg (not_lt.mpr full)))
  · exact congrArg Host.Outcome.next ((windowWrite_of_reached online reached).trans (acceptCommand_of_busy w busy))
  · exact congrArg Host.Outcome.next ((windowWrite_of_reached online reached).trans (acceptCommand_of_free w free))
  · exact congrArg Host.Outcome.next (windowWrite_of_reached online reached)
  · fin_cases mem <;> exact congrArg Host.Outcome.next (windowWrite_of_not closed)

/-! ## The words of the window (R167) -/

theorem flagBit_eq (b : Bool) (weight : Nat) : flagBit b weight = weight * b.toNat := by
  cases b <;> simp [flagBit]

theorem PresenceState.code_lt (st : PresenceState) : st.code < 4 := by
  cases st <;> decide

/-- The seven flags above two bits of state, read back. -/
theorem statusWord_bits {n : Nat} (below : n < 4) (a b c d e f g : Bool) :
    let w := word (n + flagBit a 4 + flagBit b 8 + flagBit c 16 + flagBit d 32 + flagBit e 64 + flagBit f 128 + flagBit g 256)
    w.extractLsb' 0 2 = BitVec.ofNat 2 n ∧ w.getLsbD 2 = a ∧ w.getLsbD 3 = b ∧ w.getLsbD 4 = c ∧ w.getLsbD 5 = d
      ∧ w.getLsbD 6 = e ∧ w.getLsbD 7 = f ∧ w.getLsbD 8 = g ∧ w.extractLsb' 9 7 = 0#7 := by
  have := a.toNat_le
  have := b.toNat_le
  have := c.toNat_le
  have := d.toNat_le
  have := e.toNat_le
  have := f.toNat_le
  have := g.toNat_le
  simp only [flagBit_eq]
  refine ⟨word_extractLsb' (by omega) (by rw [BitVec.toNat_ofNat]; omega), word_getLsbD (by omega) ?_,
    word_getLsbD (by omega) ?_, word_getLsbD (by omega) ?_, word_getLsbD (by omega) ?_, word_getLsbD (by omega) ?_,
    word_getLsbD (by omega) ?_, word_getLsbD (by omega) ?_, word_extractLsb' (by omega) (by rw [BitVec.toNat_ofNat]; omega)⟩
  all_goals omega

theorem conditionN_eq (s : State) (h : HostId) : conditionN s h = decide (s.ring h ≠ []) := by
  unfold conditionN
  cases s.ring h <;> simp

theorem conditionM_eq (s : State) (h : HostId) :
    conditionM s h = decide (s.queue h ≠ [] ∧ (s.stream h).openDesc = none) := by
  unfold conditionM
  cases s.queue h <;> cases (s.stream h).openDesc <;> simp

theorem pstatWord_bits (s : State) (h : HostId) : let w := pstatWord s h; let p := s.port h
    w.extractLsb' 0 2 = BitVec.ofNat 2 (s.record h).state.code
    ∧ w.getLsbD 2 = p.busy ∧ w.getLsbD 3 = p.replyReady ∧ w.getLsbD 4 = p.overrun
    ∧ w.getLsbD 5 = ((p.mask.n && decide (s.ring h ≠ []))
        || (p.mask.m && decide (s.queue h ≠ [] ∧ (s.stream h).openDesc = none)) || (p.mask.l && decide (0 < s.lost h)))
    ∧ w.getLsbD 6 = decide (0 < s.lost h)
    ∧ w.getLsbD 7 = (s.stream h).assembling.isSome ∧ w.getLsbD 8 = (s.stream h).openDesc.isSome
    ∧ w.extractLsb' 9 7 = 0#7 := by
  rw [← conditionN_eq, ← conditionM_eq]
  exact statusWord_bits (s.record h).state.code_lt ..

theorem sendWindow_le (h : HostId) (s : State) : sendWindow h s ≤ 15 := by
  unfold sendWindow
  split
  · exact Nat.zero_le _
  split
  · exact min_le_left ..
  all_goals
    split
    · exact Nat.zero_le _
    split
    · exact Nat.zero_le _
    · exact min_le_left ..

theorem pcountWord_fields {s : State} {h : HostId} (queue : (s.queue h).length ≤ 48) (ring : (s.ring h).length ≤ 8) :
    let w := pcountWord s h
    w.extractLsb' 0 8 = BitVec.ofNat 8 (s.queue h).length ∧ w.extractLsb' 8 4 = BitVec.ofNat 4 (s.ring h).length
      ∧ w.extractLsb' 12 4 = BitVec.ofNat 4 (sendWindow h s) := by
  have window := sendWindow_le h s
  refine ⟨word_extractLsb' (by omega) ?_, word_extractLsb' (by omega) ?_, word_extractLsb' (by omega) ?_⟩
  all_goals simp only [BitVec.toNat_ofNat]
  all_goals omega

theorem amaskWord_bits (m : AlertMask) : let w := amaskWord m
    w.getLsbD 0 = m.n ∧ w.getLsbD 1 = m.m ∧ w.getLsbD 2 = m.l ∧ w.extractLsb' 3 13 = 0#13 := by
  obtain ⟨a, b, c⟩ := m
  cases a <;> cases b <;> cases c <;> decide

theorem identWord_fields (s : State) (h : HostId) : let w := identWord s h
    w.extractLsb' 0 2 = BitVec.ofNat 2 h.val ∧ w.getLsbD 2 = decide ((s.port h).mode = .serial)
      ∧ w.extractLsb' 3 5 = 0#5 ∧ w.extractLsb' 8 8 = 1#8 := by
  unfold identWord
  generalize decide ((s.port h).mode = .serial) = serial
  revert serial
  fin_cases h <;> decide

/-! ## Reads (R168, R171) -/

section
variable {s : State} {h : HostId}

theorem readReplyWord_of_busy (busy : (s.port h).busy = true) : readReplyWord h s = s.returnWord h 0#16 := if_pos busy

theorem readReplyWord_of_word {i : Fin 8} (free : (s.port h).busy = false) (ready : (s.port h).replyReady = true)
    (pos : (s.port h).replyPos = i.val) : readReplyWord h s =
      (s.setPort h { s.port h with replyPos := i.val + 1 }).returnWord h ((s.port h).reply.get i) := by
  have left : (s.port h).replyPos < 8 := pos ▸ i.isLt
  have next : (s.port h).reply[(s.port h).replyPos] = (s.port h).reply.get i := by
    rw [Vector.get_eq_getElem]
    simp only [pos]
  unfold readReplyWord
  dsimp only
  rw [if_neg (by simp [free]), if_pos ready, dif_pos left, next, pos]

theorem readReplyWord_of_end (free : (s.port h).busy = false) (done : (s.port h).replyReady = false ∨ 8 ≤ (s.port h).replyPos) :
    readReplyWord h s = (s.setPort h { s.port h with overrun := true }).returnWord h 0#16 := by
  unfold readReplyWord
  dsimp only
  rw [if_neg (by simp [free])]
  split
  · next ready =>
    rw [dif_neg (not_lt.mpr (done.resolve_left (by simp [ready])))]
    rfl
  · rfl

theorem readCounts_of_sound (sound : StoreSound s) : readCounts h s = s.returnWord h (pcountWord s h) := by
  unfold readCounts
  rw [readForCount_of_storeSound sound, ite_self]

end

/-- Settles O48: each read by whether it takes place, and each word field by field. -/
theorem windowReads : Obligations.WindowReads := by
  intro s h p
  refine ⟨fun online => ⟨fun reached => ⟨pstatWord s h, ?_, pstatWord_bits s h⟩, fun reached sound queue ring =>
    ⟨pcountWord s h, ?_, pcountWord_fields queue ring⟩, fun reached => ⟨fun busy => ?_, fun free ready i pos => ?_, fun free done => ?_⟩⟩,
    fun x mem => ⟨fun missed => ?_, fun reached off => ?_⟩, rfl, rfl, fun off => ?_, fun online =>
    ⟨amaskWord p.mask, identWord s h, ?_, ?_, ?_⟩, fun loc => ?_⟩
  · exact congrArg Host.Outcome.next (windowRead_of_reached online reached)
  · exact congrArg Host.Outcome.next ((windowRead_of_reached online reached).trans (readCounts_of_sound sound))
  · exact congrArg Host.Outcome.next ((windowRead_of_reached online reached).trans (readReplyWord_of_busy busy))
  · exact congrArg Host.Outcome.next ((windowRead_of_reached online reached).trans (readReplyWord_of_word free ready pos))
  · exact congrArg Host.Outcome.next ((windowRead_of_reached online reached).trans (readReplyWord_of_end free done))
  · fin_cases mem <;> exact congrArg Host.Outcome.next (windowRead_of_missed missed)
  · fin_cases mem <;> exact congrArg Host.Outcome.next (windowRead_of_offline off reached)
  · simp [quietRead, State.offline, off]
  · simp [quietRead, State.offline, online, p]
  · simp [quietRead, State.offline, online]
  · obtain ⟨n, m, l, rest⟩ := amaskWord_bits p.mask
    exact ⟨n, m, l, rest, identWord_fields s h⟩
  · cases loc <;> simp [quietRead]

/-! ## Replies (R171, R175, R176) -/

theorem replyFrame_get (ws : List Word) (i : Fin 8) : (replyFrame ws).get i = (ws[i.val]?).getD 0#16 := by
  rw [replyFrame, Vector.get_ofFn, List.getD_eq_getElem?_getD]

section
variable {s : State} {h : HostId} {k : Nat} {r : Reply} (arrives : (s.port h).replies[k]? = some r)
include arrives

theorem exec_replyArrival_of_leave (leave : r.afterLeave = true) (departing : .left ∈ (s.port h).departures) :
    exec (.replyArrival h k) s = .next s := by
  simp [exec, execReplyArrival, arrives, leave, departing]

theorem exec_replyArrival_of_due (due : r.afterLeave = false ∨ .left ∉ (s.port h).departures) :
    exec (.replyArrival h k) s
      = .next (s.setPort h (placeReply { s.port h with replies := (s.port h).replies.eraseIdx k } r)) := by
  have now : ¬ (r.afterLeave = true ∧ .left ∈ (s.port h).departures) := by
    rintro ⟨after, departing⟩
    exact due.elim (by simp [after]) fun gone => gone departing
  simp only [exec, execReplyArrival, arrives, if_neg now]

end

/-- Settles O49: the reply waits, is discarded, or is placed. -/
theorem replyArrivalPlacesReply : Obligations.ReplyArrivalPlacesReply := by
  intro s h k r arrives p
  refine ⟨exec_replyArrival_of_leave arrives, fun due => ?_⟩
  rw [exec_replyArrival_of_due arrives due]
  refine ⟨fun orphan => ?_, fun known flight => ⟨replyFrame r.words, ?_, replyFrame_get r.words⟩⟩
  · rw [placeReply, if_pos orphan]
  · rw [placeReply, if_neg known, if_pos flight]

/-! ## Serial transactions (R179) -/

theorem headerPhase_encodeHeader (read : Bool) (loc : Loc) : headerPhase (encodeHeader read loc) = .data read loc := by
  rw [headerPhase, decodeHeader_encodeHeader]

theorem headerPhase_of_unwritten {b : Byte} (unwritten : ∀ read loc, b ≠ encodeHeader read loc) : headerPhase b = .ignoring := by
  unfold headerPhase
  split
  · next read loc selected => exact absurd ((codesAndHeadersDecode.2.1 b read loc).mp selected) (unwritten read loc)
  · rfl

section
variable {s : State} {h : HostId} {loc : Loc}

theorem returnWord_of_serial (serial : (s.port h).mode = .serial) (w : Word) :
    s.returnWord h w = s.setPort h { s.port h with dataOut := w, sdoDriven := true } := by
  simp [State.returnWord, serial]

theorem readQuietWord_of_data (serial : (s.port h).mode = .serial) (data : (s.port h).serial = .data true loc) :
    readQuietWord h s = ((quietRead s h loc).map fun w => s.returnWord h w).getD s := by
  unfold readQuietWord
  rw [serial, data]
  dsimp only
  cases quietRead s h loc <;> rfl

theorem readQuietWord_of_other (other : ∀ loc, (s.port h).serial ≠ .data true loc) : readQuietWord h s = s := by
  unfold readQuietWord
  split
  · next data => exact absurd data (other _)
  · rfl

end

/-- Settles O50: phase by phase at a SERIAL port; a PARALLEL port takes no part. -/
theorem serialTransactions : Obligations.SerialTransactions := by
  intro s h b cut
  refine ⟨fun serial => ⟨fun idle => ?_, fun header => ⟨fun read loc written => ?_, fun unwritten => ?_⟩, fun loc data => ⟨?_, fun w => ?_,
    fun w quiet => ?_, fun loud => ?_⟩, fun other => ?_, ?_⟩, fun parallel i mem => ?_⟩
  · exact if_pos ⟨serial, idle⟩
  · rw [written]
    exact (if_pos ⟨serial, header⟩).trans (by rw [headerPhase_encodeHeader])
  · exact (if_pos ⟨serial, header⟩).trans (by rw [headerPhase_of_unwritten unwritten])
  · simp [State.reaches, serial, data]
  · rw [returnWord_of_serial serial, State.setPort_port_same]
  · refine congrArg Host.Outcome.next ((readQuietWord_of_data serial data).trans ?_)
    rw [quiet, ← returnWord_of_serial serial]
    rfl
  · refine congrArg Host.Outcome.next ((readQuietWord_of_data serial data).trans ?_)
    rw [loud]
    rfl
  · exact congrArg Host.Outcome.next (readQuietWord_of_other other)
  · exact if_pos serial
  · have shut : (s.port h).mode ≠ .serial := by simp [parallel]
    fin_cases mem
    · exact if_neg fun x => shut x.1
    · exact if_neg fun x => shut x.1
    · refine congrArg Host.Outcome.next ?_
      unfold readQuietWord
      rw [parallel]
    · exact if_neg shut

end Sys2Proof.Machine
end

section
/-! PROOF. Notices at a ring (O46), and the ticks of the time base (O51). -/

namespace Sys2Proof.Machine

open Sys2Proof

/-! ## Offers (R137, R138) -/

section
variable {s : State} {h : HostId} {k : Nat} {o : Offer}

theorem exec_noticeOffer_of_offered (offered : (s.notice.offers.get h)[k]? = some o) : exec (.noticeOffer h k) s =
    .next (takeOffer h o { s with notice := { s.notice with
      offers := upd s.notice.offers h ((s.notice.offers.get h).eraseIdx k) } }) := by
  simp only [exec, execNoticeOffer, offered]

theorem takeOffer_of_out (out : s.notice.joined.get h = none) : takeOffer h o s = s := by
  simp [takeOffer, out]

theorem takeOffer_of_ended {n j : Nat} (joined : s.notice.joined.get h = some n) (own : o.notice.ofSession = true)
    (session : o.session = some j) (other : j ≠ n) (gone : .join h j ∉ s.notice.path) : takeOffer h o s = s := by
  refine if_pos (.inr ?_)
  simp [offerEnded, session, own, joined, gone, other.symm]

theorem offerEnded_of_current {n : Nat} (joined : s.notice.joined.get h = some n)
    (current : o.notice.ofSession = true → ∀ j, o.session = some j → j = n ∨ .join h j ∈ s.notice.path) :
    offerEnded h o s = false := by
  unfold offerEnded
  cases session : o.session with
  | none => rfl
  | some j =>
    cases own : o.notice.ofSession with
    | false => rfl
    | true =>
      rcases current own j session with rfl | coming
      · simp [joined]
      · simp [coming]

theorem takeOffer_of_current {n : Nat} (joined : s.notice.joined.get h = some n)
    (current : o.notice.ofSession = true → ∀ j, o.session = some j → j = n ∨ .join h j ∈ s.notice.path) : takeOffer h o s =
      if (s.ring h).length < 8
      then { s with notice := { s.notice with rings := upd s.notice.rings h (s.ring h ++ [o.notice]) } }
      else { s with notice := { s.notice with lost := upd s.notice.lost h (min 255 (s.lost h + 1)) } } := by
  unfold takeOffer
  rw [if_neg (by simp [joined, offerEnded_of_current joined current])]
  rfl

end

/-! ## NEXT_NOTICE (R139) -/

/-- Field i of a notice is there and present. -/
def Notice.present (n : Notice) (i : Nat) : Bool := (n.fields[i]?.getD none).isSome

theorem Notice.presenceWord_eq (n : Notice) : n.presenceWord = word [if n.present 0 then 1 else 0, if n.present 1 then 2 else 0,
    if n.present 2 then 4 else 0, if n.present 3 then 8 else 0].sum := by
  unfold Notice.presenceWord Notice.present
  cases n <;> simp [Notice.fields, List.zipIdx]

theorem Notice.presenceWord_getLsbD (n : Notice) (i : Fin 4) : n.presenceWord.getLsbD i.val = n.present i.val := by
  obtain ⟨⟨b0, b1, b2, b3⟩, -⟩ := joinedSet_bits (n.present 0) (n.present 1) (n.present 2) (n.present 3)
  rw [n.presenceWord_eq]
  fin_cases i
  · exact b0
  · exact b1
  · exact b2
  · exact b3

theorem Notice.presenceWord_high (n : Notice) : n.presenceWord.extractLsb' 4 12 = 0#12 := by
  rw [n.presenceWord_eq]
  exact (joinedSet_bits ..).2

/-- The word that reports field i of a notice. -/
def Notice.fieldWord (n : Notice) (i : Nat) : Word :=
  match n.fields[i]? with
  | none => 0#16
  | some none => noneWord
  | some (some w) => w

theorem Notice.fieldWord_get (n : Notice) (i : Fin 4) :
    [n.fieldWord 0, n.fieldWord 1, n.fieldWord 2, n.fieldWord 3].getD i.val 0#16 = n.fieldWord i.val := by
  fin_cases i <;> rfl

theorem Notice.kindCode_lt (n : Notice) : n.kindCode < 256 := by
  cases n <;> simp [Notice.kindCode]

theorem kindWord_fields (n : Notice) {left : Nat} (few : left ≤ 7) : let w := word (n.kindCode + 256 * left)
    w.extractLsb' 0 8 = BitVec.ofNat 8 n.kindCode ∧ w.extractLsb' 8 4 = BitVec.ofNat 4 left ∧ w.extractLsb' 12 4 = 0#4 := by
  have kind := n.kindCode_lt
  refine ⟨word_extractLsb' (by omega) ?_, word_extractLsb' (by omega) ?_, word_extractLsb' (by omega) ?_⟩
  all_goals
    rw [BitVec.toNat_ofNat]
    omega

theorem exec_nextNotice_of_taken {s t : State} {h : HostId} {id : Nat}
    (taken : s.takeNoticeCommand h .nextNotice [] = some (id, t)) : exec (.nextNotice h) s = .next (nextNoticeTaken h id t) := by
  simp [exec, execNextNotice, taken]

/-- Settles O46: an offer by the count, the session and the ring; NEXT_NOTICE by the ring, field by field. -/
theorem noticesEnterAndLeave : Obligations.NoticesEnterAndLeave := by
  refine ⟨?_, ?_⟩
  · intro s h k o offered t own
    have ofSession : o.notice.ofSession = true ↔ own := by
      cases notice : o.notice <;> simp [own, notice, Notice.ofSession]
    rw [exec_noticeOffer_of_offered offered]
    refine ⟨fun out => ?_, fun n j joined concerns session other gone => ?_, fun n joined current => ⟨fun short => ?_, fun full => ?_⟩⟩
    · exact congrArg Host.Outcome.next (takeOffer_of_out out)
    · exact congrArg Host.Outcome.next (takeOffer_of_ended joined (ofSession.mpr concerns) session other gone)
    · exact congrArg Host.Outcome.next ((takeOffer_of_current (s := t) joined (current ∘ ofSession.mp)).trans (if_pos short))
    · exact congrArg Host.Outcome.next ((takeOffer_of_current (s := t) joined (current ∘ ofSession.mp)).trans (if_neg (not_lt.mpr full)))
  intro s t h id taken cleared
  refine ⟨fun empty => ?_, fun n rest ring few => ?_⟩
  · rw [exec_nextNotice_of_taken taken, nextNoticeTaken, empty]
  · refine ⟨word (n.kindCode + 256 * rest.length), n.presenceWord, n.fieldWord 0, n.fieldWord 1, n.fieldWord 2, n.fieldWord 3, ?_, ?_⟩
    · rw [exec_nextNotice_of_taken taken, nextNoticeTaken, ring]
      rfl
    · obtain ⟨kind, left, high⟩ := kindWord_fields n few
      refine ⟨kind, left, high, n.presenceWord_high, ?_⟩
      intro i f
      have word : f = n.fieldWord i.val := n.fieldWord_get i
      rw [word, n.presenceWord_getLsbD, Notice.present, Notice.fieldWord]
      rcases n.fields[i.val]? with _ | _ | w
      · exact ⟨rfl, rfl⟩
      · exact ⟨rfl, rfl⟩
      · exact ⟨rfl, rfl⟩

/-! ## The time base (R146) -/

/-- Periods that pass together are periods that pass one after the other. -/
theorem TimeBase.advance_add (b : TimeBase) {d : Nat} (positive : 0 < d) (m n : Nat) : b.advance d (m + n) =
    (((b.advance d m).1.advance d n).1, (b.advance d m).2 + ((b.advance d m).1.advance d n).2) := by
  by_cases running : b.count + m < b.divider
  · have first : b.advance d m = (⟨b.count + m, b.divider⟩, 0) := if_pos running
    rw [first]
    simp only [TimeBase.advance, Nat.add_assoc, Nat.zero_add]
  · have first : b.advance d m = (⟨(b.count + m - b.divider) % d, d⟩, (b.count + m - b.divider) / d + 1) := if_neg running
    have later : b.advance d (m + n)
        = (⟨(b.count + m - b.divider + n) % d, d⟩, (b.count + m - b.divider + n) / d + 1) := by
      have passed : b.count + (m + n) - b.divider = b.count + m - b.divider + n := by omega
      rw [TimeBase.advance, if_neg (by omega), passed]
    rw [first, later]
    generalize b.count + m - b.divider = rest
    have split := Nat.div_add_mod rest d
    have below := Nat.mod_lt rest positive
    generalize rest / d = q at split ⊢
    generalize rest % d = r at split below ⊢
    have total : rest + n = r + n + d * q := by omega
    rw [total, Nat.add_mul_mod_self_left, Nat.add_mul_div_left _ _ positive]
    dsimp only
    by_cases short : r + n < d
    · rw [TimeBase.advance, if_pos short, Nat.mod_eq_of_lt short, Nat.div_eq_of_lt short]
      congr 1
      omega
    · obtain ⟨x, full⟩ : ∃ x, r + n = x + d * 1 := ⟨r + n - d, by rw [Nat.mul_one]; omega⟩
      have passed : r + n - d = x := by omega
      rw [TimeBase.advance, if_neg short, passed, full, Nat.add_mul_mod_self_left, Nat.add_mul_div_left _ _ positive]
      dsimp only
      congr 1
      omega

theorem clkinPeriods_add {s : State} (running : s.resetn = false) (positive : 0 < s.settings.tickDiv) (m n : Nat) :
    clkinPeriods (m + n) s = clkinPeriods n (clkinPeriods m s) := by
  have still (k : Nat) : (clkinPeriods k s).resetn = false := by simp [clkinPeriods, running]
  rw [clkinPeriods, if_neg (by simp [running]), clkinPeriods, if_neg (by simp [still]), clkinPeriods,
    if_neg (by simp [running])]
  dsimp only
  rw [TimeBase.advance_add _ positive]
  simp only [Nat.add_assoc]

theorem clkinPeriods_one_of_running {s : State} (running : s.resetn = false) (short : s.timeBase.count + 1 < s.timeBase.divider) :
    clkinPeriods 1 s = { s with timeBase := { s.timeBase with count := s.timeBase.count + 1 } } := by
  simp [clkinPeriods, running, TimeBase.advance, short]

theorem clkinPeriods_one_of_full {s : State} (running : s.resetn = false) (full : s.timeBase.count + 1 = s.timeBase.divider) :
    clkinPeriods 1 s = { s with
      timeBase := ⟨0, s.settings.tickDiv⟩
      presence := { s.presence with ticks := s.presence.ticks + 1 }
      dir := { s.dir with ticks := s.dir.ticks + 1 }
      store := { s.store with ticks := s.store.ticks + 1 } } := by
  simp [clkinPeriods, running, TimeBase.advance, full]

/-! ## Ticks at the blocks (R13, R45, R96, R97) -/

theorem termDue_iff (s : State) : termDue s = true ↔ ∃ h, (s.record h).state = .joined ∧ (s.record h).term = some 0 := by
  simp [termDue, allHosts]

theorem waitDue_iff (s : State) : waitDue s = true ↔ ∃ h l w, s.wait h = some ⟨l, w, some 0⟩ := by
  simp only [waitDue, allHosts, List.any_eq_true, List.mem_finRange, true_and]
  refine exists_congr fun h => ?_
  cases s.wait h with
  | none => simp
  | some r =>
    obtain ⟨l, w, ticks⟩ := r
    simp

theorem spaceDue_iff (s : State) :
    spaceDue s = true ↔ ∃ h, (∃ n, s.space h = .waiting n (some 0)) ∨ ∃ d, s.space h = .reserved d 0 := by
  simp only [spaceDue, allHosts, List.any_eq_true, List.mem_finRange, true_and]
  refine exists_congr fun h => ?_
  cases s.space h <;> simp [SpaceRecord.isDue]

theorem presenceTick_of_due {s : State} (due : termDue s = true) : presenceTick s = s := if_pos (.inr due)

theorem directoryTick_of_due {s : State} (due : waitDue s = true) : directoryTick s = s := if_pos (.inr due)

theorem storeTick_of_due {s : State} (due : spaceDue s = true) : storeTick s = s := if_pos (.inr due)

theorem PresenceRecord.tick_eq : PresenceRecord.tick =
    fun r => { r with term := if r.state = .joined then r.term.map (fun n => n - 1) else r.term } := by
  funext r
  unfold PresenceRecord.tick lower
  split <;> simp_all

section
variable {s : State} {k : Nat}

theorem presenceTick_of_ready (ticks : s.presence.ticks = k + 1) (ready : termDue s ≠ true) : presenceTick s =
    { s with presence := { s.presence with records := s.presence.records.map PresenceRecord.tick, ticks := k } } := by
  rw [presenceTick, if_neg (by simp [ticks, ready]), ticks, Nat.add_sub_cancel]

theorem directoryTick_of_ready (ticks : s.dir.ticks = k + 1) (ready : waitDue s ≠ true) : directoryTick s =
    { s with dir := { s.dir with waits := s.dir.waits.map fun r => r.map WaitRecord.tick, ticks := k } } := by
  rw [directoryTick, if_neg (by simp [ticks, ready]), ticks, Nat.add_sub_cancel]

theorem storeTick_of_ready (ticks : s.store.ticks = k + 1) (ready : spaceDue s ≠ true) : storeTick s =
    { s with store := { s.store with space := s.store.space.map SpaceRecord.tick, ticks := k } } := by
  rw [storeTick, if_neg (by simp [ticks, ready]), ticks, Nat.add_sub_cancel]

end

/-- Settles O51: a period by whether it completes the divider, and a tick at each block by what is due there. -/
theorem ticksProducedAndTaken : Obligations.TicksProducedAndTaken := by
  refine ⟨fun s => ⟨fun held n => ?_, fun running => ⟨fun short => ?_, fun full => ?_, fun positive m n t e => ?_⟩⟩, ?_⟩
  · exact congrArg Host.Outcome.next (if_pos held)
  · exact congrArg Host.Outcome.next (clkinPeriods_one_of_running running short)
  · exact congrArg Host.Outcome.next (clkinPeriods_one_of_full running full)
  · injection e with same
    rw [← same]
    exact congrArg Host.Outcome.next (clkinPeriods_add running positive m n)
  intro s k lowered
  refine ⟨fun ticks => ⟨fun due => ?_, fun ready => ?_⟩, fun ticks => ⟨fun due => ?_, fun ready => ?_⟩,
    fun ticks => ⟨fun due => ?_, fun waits holds => ?_⟩⟩
  · exact congrArg Host.Outcome.next (presenceTick_of_due ((termDue_iff s).mpr due))
  · refine congrArg Host.Outcome.next ((presenceTick_of_ready ticks fun due => ?_).trans (by rw [PresenceRecord.tick_eq]))
    obtain ⟨h, joined, term⟩ := (termDue_iff s).mp due
    exact ready h joined term
  · exact congrArg Host.Outcome.next (directoryTick_of_due ((waitDue_iff s).mpr due))
  · refine congrArg Host.Outcome.next (directoryTick_of_ready ticks fun due => ?_)
    obtain ⟨h, l, w, wait⟩ := (waitDue_iff s).mp due
    exact ready h l w wait
  · exact congrArg Host.Outcome.next (storeTick_of_due ((spaceDue_iff s).mpr due))
  · refine congrArg Host.Outcome.next ((storeTick_of_ready ticks fun due => ?_).trans ?_)
    · obtain ⟨h, ⟨n, waiting⟩ | ⟨d, reserved⟩⟩ := (spaceDue_iff s).mp due
      · exact waits h n waiting
      · exact holds h d reserved
    · rfl

end Sys2Proof.Machine
end

section
/-! PROOF. The lease commands: CLAIM (O12, O13), the argument and the read that all seven have in common (O14, O15),
CANCEL_WAIT and the expiries of lease waits (O21, O22), and REPAIR (O23). -/

namespace Sys2Proof.Machine

open Sys2Proof

/-! ## The seven commands as work at a lease (R27, R28) -/

theorem parseLease_of_large {lease : Word} (large : 64 ≤ lease.toNat) : parseLease lease = none :=
  dif_neg (by omega)

theorem parseMode_shared : parseMode 1#16 = some .shared := rfl

theorem parseMode_exclusive : parseMode 2#16 = some .exclusive := rfl

theorem parseMode_of_unknown {mode : Word} (notShared : mode ≠ 1#16) (notExclusive : mode ≠ 2#16) : parseMode mode = none := by
  unfold parseMode
  split
  · next one => exact absurd (BitVec.eq_of_toNat_eq one) notShared
  · next two => exact absurd (BitVec.eq_of_toNat_eq two) notExclusive
  · rfl

theorem parseMode_of_known {mode : Word} (known : mode = 1#16 ∨ mode = 2#16) :
    parseMode mode = some (if mode = 1#16 then .shared else .exclusive) := by
  rcases known with rfl | rfl <;> rfl

section
variable {s t : State} {h : HostId} {l : LeaseId} {lease : Word} {id : Nat}

theorem atLease_of_large (work : LeaseId → State → State) (large : 64 ≤ lease.toNat) :
    atLease h id lease work t = t.reply h id .badArg [] := by
  simp [atLease, parseLease_of_large large]

theorem readEntry_corrected (l : LeaseId) (t : State) :
    readEntry l ((t.putEntry l (t.entry l)).raiseCorrected) = (false, (t.putEntry l (t.entry l)).raiseCorrected) :=
  readEntry_sound (by simp [State.raiseCorrected, State.putEntry])

theorem atLease_of_correctable (work : LeaseId → State → State) (names : lease.toNat = l.val)
    (flawed : (t.dir.entries.get l).chk = .correctable) :
    atLease h id lease work t = atLease h id lease work ((t.putEntry l (t.entry l)).raiseCorrected) := by
  simp only [atLease, parseLease_of_toNat names, readEntry_corrected]
  simp only [readEntry, flawed]

theorem atLease_of_uncorrectable (work : LeaseId → State → State) (names : lease.toNat = l.val)
    (flawed : (t.dir.entries.get l).chk = .uncorrectable) :
    atLease h id lease work t = ((rebuildEntry l t).dirFinding l).reply h id .damaged [] := by
  simp only [atLease, parseLease_of_toNat names, readEntry, flawed]

/-- A CLAIM with a mode is work at its lease like the other six commands. -/
theorem claimTaken_of_mode {mode wait : Word} {m : LeaseMode} (parsed : parseMode mode = some m) :
    claimTaken h id lease mode wait t = atLease h id lease (fun l => claimEntry h id l m wait) t := by
  unfold claimTaken atLease
  rw [parsed]
  cases parseLease lease <;> rfl

theorem claimTaken_of_no_mode {mode wait : Word} (unknown : parseMode mode = none) :
    claimTaken h id lease mode wait t = t.reply h id .badArg [] := by
  unfold claimTaken
  rw [unknown]
  cases parseLease lease <;> rfl

theorem exec_claim_of_taken {mode wait : Word} (taken : s.takeDirCommand h .claim [lease, mode, wait] = some (id, t)) :
    exec (.claim h lease mode wait) s = .next (claimTaken h id lease mode wait t) := by
  simp [exec, execClaim, taken]

theorem exec_claim_of_sound {mode wait : Word} {m : LeaseMode}
    (taken : s.takeDirCommand h .claim [lease, mode, wait] = some (id, t)) (names : lease.toNat = l.val)
    (sound : EntrySound t l) (parsed : parseMode mode = some m) :
    exec (.claim h lease mode wait) s = .next (claimEntry h id l m wait t) := by
  rw [exec_claim_of_taken taken, claimTaken_of_mode parsed, atLease_of_sound h id _ names sound]

/-- The directory takes the same command when an entry has been corrected. -/
theorem takeDirCommand_corrected {k : CommandKind} {args : List Word} (l : LeaseId)
    (taken : s.takeDirCommand h k args = some (id, t)) :
    ((s.putEntry l (s.entry l)).raiseCorrected).takeDirCommand h k args
      = some (id, (t.putEntry l (t.entry l)).raiseCorrected) := by
  obtain ⟨c, rest, path, own, joined, rfl, rfl⟩ := takeDirCommand_some taken
  have path' : ((s.putEntry l (s.entry l)).raiseCorrected).dir.path = .command c :: rest := path
  unfold State.takeDirCommand
  rw [path']
  exact if_pos ⟨own, joined⟩

/-- Each command that names a lease, a CLAIM with a mode among them, is work of its own at that lease. -/
theorem exec_leaseCommand {a b : Word} {x : CommandKind × List Word × Instr} (mem : x ∈ leaseCommands h lease a b)
    (mode : x.1 = .claim → a = 1#16 ∨ a = 2#16) (id : Nat) : ∃ work : LeaseId → State → State, ∀ s t : State,
      s.takeDirCommand h x.1 x.2.1 = some (id, t) → exec x.2.2 s = .next (atLease h id lease work t) := by
  simp only [leaseCommands, List.mem_cons, List.not_mem_nil, or_false] at mem
  rcases mem with rfl | rfl | rfl | rfl | rfl | rfl | rfl
  · exact ⟨_, fun s t taken => by rw [exec_claim_of_taken taken, claimTaken_of_mode (parseMode_of_known (mode rfl))]⟩
  · exact ⟨releaseEntry h id, fun s t taken => by simp only [exec, execRelease, taken]⟩
  · exact ⟨upgradeEntry h id a, fun s t taken => by simp only [exec, execUpgrade, taken]⟩
  · exact ⟨downgradeEntry h id, fun s t taken => by simp only [exec, execDowngrade, taken]⟩
  · exact ⟨repairEntry h id, fun s t taken => by simp only [exec, execRepair, taken]⟩
  · exact ⟨queryEntry h id, fun s t taken => by simp only [exec, execQuery, taken]⟩
  · exact ⟨writeValueEntry h id a b, fun s t taken => by simp only [exec, execWriteValue, taken]⟩

/-- A CLAIM with no mode is refused before its lease is looked at. -/
theorem exec_claim_of_no_mode {a b : Word} (taken : s.takeDirCommand h .claim [lease, a, b] = some (id, t))
    (notShared : a ≠ 1#16) (notExclusive : a ≠ 2#16) : exec (.claim h lease a b) s = .next (t.reply h id .badArg []) := by
  rw [exec_claim_of_taken taken, claimTaken_of_no_mode (parseMode_of_unknown notShared notExclusive)]

end

/-- The row of a CLAIM among the commands that name a lease. -/
theorem leaseCommands_claim {h : HostId} {lease a b : Word} {x : CommandKind × List Word × Instr}
    (mem : x ∈ leaseCommands h lease a b) (claim : x.1 = .claim) : x = (.claim, [lease, a, b], .claim h lease a b) := by
  simp only [leaseCommands, List.mem_cons, List.not_mem_nil, or_false] at mem
  rcases mem with rfl | rfl | rfl | rfl | rfl | rfl | rfl
  · rfl
  all_goals nomatch claim

/-- Settles O14: every command that names a lease is work at that lease, after one read of its entry. -/
theorem leaseArgumentsThenRead : Obligations.LeaseArgumentsThenRead := by
  refine fun s t h lease a b id => ⟨fun x mem taken => ⟨fun large => ?_, fun l names flawed mode => ?_⟩, exec_claim_of_no_mode⟩
  · by_cases mode : x.1 = .claim → a = 1#16 ∨ a = 2#16
    · obtain ⟨work, runs⟩ := exec_leaseCommand mem mode id
      rw [runs s t taken, atLease_of_large work large]
    · obtain ⟨claim, unknown⟩ := Classical.not_imp.mp mode
      obtain ⟨notShared, notExclusive⟩ := not_or.mp unknown
      cases leaseCommands_claim mem claim
      exact exec_claim_of_no_mode taken notShared notExclusive
  · obtain ⟨work, runs⟩ := exec_leaseCommand mem mode id
    have flawedT : (t.dir.entries.get l).chk = .correctable := by
      obtain ⟨c, rest, -, -, -, -, rfl⟩ := takeDirCommand_some taken
      exact flawed
    rw [runs s t taken, runs _ _ (takeDirCommand_corrected l taken), atLease_of_correctable work names flawedT]

/-! ## The rebuild in one update (R157, R158) -/

/-- The state with the wait records and the notices on their way replaced. -/
def State.withEnded (s : State) (waits : PerHost (Option WaitRecord)) (offers : PerHost (List Offer)) : State :=
  { s with dir := { s.dir with waits := waits }, notice := { s.notice with offers := offers } }

/-- What the rebuild of lease l offers to host g: STRANDED, when g waits on it. -/
def State.endedOffer (s : State) (l : LeaseId) (g : HostId) : List Offer :=
  if (s.wait g).map WaitRecord.lease = some l then [⟨.stranded l none .integrity, s.dirSession g⟩] else []

/-- One host's part of a rebuild, as one update. -/
theorem endRebuiltWait_eq (l : LeaseId) (s : State) (g : HostId) : endRebuiltWait l s g = s.withEnded
    (upd s.dir.waits g (if (s.wait g).map WaitRecord.lease = some l then none else s.wait g))
    (upd s.notice.offers g (s.notice.offers.get g ++ s.endedOffer l g)) := by
  have same : s = s.withEnded (upd s.dir.waits g (s.wait g)) (upd s.notice.offers g (s.notice.offers.get g ++ [])) := by
    rw [State.wait, upd_get_self, List.append_nil, upd_get_self]
    rfl
  unfold endRebuiltWait State.endedOffer
  cases wait : s.wait g with
  | none => simpa [wait] using same
  | some r =>
    by_cases on : r.lease = l
    · simp only [on, if_true, Option.map_some]
      rfl
    · simpa [on, wait] using same

theorem vector_get_ofFn {α : Type} {n : Nat} (f : Fin n → α) (k : Fin n) : (Vector.ofFn f).get k = f k := by
  simp [Vector.get_eq_getElem]

theorem vector_ofFn_get {α : Type} {n : Nat} (v : Vector α n) : Vector.ofFn v.get = v := by
  ext1 i hi
  simp [Vector.get_eq_getElem]

/-- Distinct hosts whose waits end one after the other each have it end once. -/
theorem foldl_endRebuiltWait (l : LeaseId) (gs : List HostId) (distinct : gs.Nodup) (s : State) :
    gs.foldl (endRebuiltWait l) s = s.withEnded
      (Vector.ofFn fun g => if g ∈ gs ∧ (s.wait g).map WaitRecord.lease = some l then none else s.wait g)
      (Vector.ofFn fun g => s.notice.offers.get g ++ if g ∈ gs then s.endedOffer l g else []) := by
  induction gs generalizing s with
  | nil =>
    have waits : (Vector.ofFn fun g => s.wait g) = s.dir.waits := vector_ofFn_get s.dir.waits
    have offers : (Vector.ofFn fun g => s.notice.offers.get g) = s.notice.offers := vector_ofFn_get s.notice.offers
    simp only [List.foldl_nil, List.not_mem_nil, false_and, if_false, List.append_nil, waits, offers]
    rfl
  | cons g gs ih =>
    obtain ⟨fresh, rest⟩ := List.nodup_cons.mp distinct
    rw [List.foldl_cons, ih rest, endRebuiltWait_eq]
    generalize newWait : (if (s.wait g).map WaitRecord.lease = some l then none else s.wait g) = w
    generalize newOffers : s.notice.offers.get g ++ s.endedOffer l g = o
    have waits (x : HostId) (ne : g ≠ x) : (s.withEnded (upd s.dir.waits g w) (upd s.notice.offers g o)).wait x = s.wait x :=
      upd_get_ne _ _ ne
    have waitG : (s.withEnded (upd s.dir.waits g w) (upd s.notice.offers g o)).wait g = w := upd_get_same ..
    have offersX (x : HostId) (ne : g ≠ x) : (upd s.notice.offers g o).get x = s.notice.offers.get x := upd_get_ne _ _ ne
    have offered (x : HostId) (ne : g ≠ x) :
        (s.withEnded (upd s.dir.waits g w) (upd s.notice.offers g o)).endedOffer l x = s.endedOffer l x := by
      unfold State.endedOffer
      rw [waits x ne]
      rfl
    show State.withEnded s _ _ = State.withEnded s _ _
    congr 2
    · funext x
      rcases eq_or_ne g x with rfl | ne
      · rw [waitG, if_neg (by simp [fresh]), ← newWait]
        simp
      · rw [waits x ne]
        simp [ne.symm]
    · funext x
      show (upd s.notice.offers g o).get x ++ _ = _
      rcases eq_or_ne g x with rfl | ne
      · rw [upd_get_same, ← newOffers]
        simp [fresh]
      · rw [offersX x ne, offered x ne]
        simp [ne.symm]

/-- A rebuild: the entry, the waits on the lease, and STRANDED to each host that waited. -/
theorem rebuildEntry_ended (l : LeaseId) (s : State) : rebuildEntry l s = (s.putEntry l LeaseEntry.rebuilt).withEnded
    (Vector.ofFn fun g => if (s.wait g).map WaitRecord.lease = some l then none else s.wait g)
    (Vector.ofFn fun g => s.notice.offers.get g ++ s.endedOffer l g) := by
  rw [rebuildEntry_eq, foldl_endRebuiltWait l allHosts (List.nodup_finRange 4)]
  simp only [allHosts, List.mem_finRange, true_and, if_true]
  rfl

/-- The offer of a notice that the directory makes to host g, when it counts g JOINED. -/
def State.dirOffer (s : State) (n : Notice) (g : HostId) : List Offer :=
  if (s.dir.joined.get g).isSome = true then [⟨n, s.dirSession g⟩] else []

/-- One host's part of a finding of the directory. -/
def State.tellDirJoined (n : Notice) (s : State) (g : HostId) : State :=
  if (s.dir.joined.get g).isSome then s.offerDir g n else s

theorem State.tellDirJoined_eq (n : Notice) (s : State) (g : HostId) : s.tellDirJoined n g =
    s.withOffers (upd s.notice.offers g (s.notice.offers.get g ++ s.dirOffer n g)) := by
  unfold State.tellDirJoined State.dirOffer
  split
  · rfl
  · rw [List.append_nil, upd_get_self]
    rfl

/-- Distinct hosts told by the directory one after the other are each told once. -/
theorem State.foldl_tellDirJoined (n : Notice) (gs : List HostId) (distinct : gs.Nodup) (s : State) :
    gs.foldl (State.tellDirJoined n) s = s.withOffers
      (Vector.ofFn fun g => s.notice.offers.get g ++ if g ∈ gs then s.dirOffer n g else []) := by
  induction gs generalizing s with
  | nil =>
    have offers : (Vector.ofFn fun g => s.notice.offers.get g) = s.notice.offers := vector_ofFn_get s.notice.offers
    simp only [List.foldl_nil, List.not_mem_nil, if_false, List.append_nil, offers]
    rfl
  | cons g gs ih =>
    obtain ⟨fresh, rest⟩ := List.nodup_cons.mp distinct
    rw [List.foldl_cons, ih rest, State.tellDirJoined_eq, State.withOffers_withOffers]
    congr 2
    funext x
    show (upd s.notice.offers g _).get x ++ (if x ∈ gs then s.dirOffer n x else []) = _
    rcases eq_or_ne g x with rfl | ne
    · simp [fresh]
    · simp [upd_get_ne _ _ ne, ne.symm]

/-- A finding of the directory: counted, and FAULT to every host that the directory counts JOINED. -/
theorem dirFinding_eq (s : State) (l : LeaseId) : s.dirFinding l = s.raiseUncorrected.withOffers
    (Vector.ofFn fun g => s.notice.offers.get g ++ s.dirOffer (.fault .directory l.val) g) := by
  have told := State.foldl_tellDirJoined (.fault .directory l.val) allHosts (List.nodup_finRange 4) s.raiseUncorrected
  simp only [allHosts, List.mem_finRange, if_true] at told
  exact told

/-- The rebuild of an entry found uncorrectable, with its finding. -/
theorem rebuilt_finding_eq (l : LeaseId) (t : State) : (rebuildEntry l t).dirFinding l = { t with
    dir := { t.dir with
      entries := upd t.dir.entries l ⟨LeaseEntry.rebuilt, .sound⟩
      waits := Vector.ofFn fun g => if (t.wait g).map WaitRecord.lease = some l then none else t.wait g }
    notice := { t.notice with
      offers := Vector.ofFn fun g => t.notice.offers.get g ++ t.endedOffer l g ++ t.dirOffer (.fault .directory l.val) g }
    settings := { t.settings with uncorrectedDue := t.settings.uncorrectedDue + 1 } } := by
  have offers (g : HostId) : (rebuildEntry l t).notice.offers.get g = t.notice.offers.get g ++ t.endedOffer l g := by
    rw [rebuildEntry_ended]
    exact vector_get_ofFn ..
  have told (g : HostId) : (rebuildEntry l t).dirOffer (.fault .directory l.val) g = t.dirOffer (.fault .directory l.val) g := by
    rw [rebuildEntry_ended]
    rfl
  rw [dirFinding_eq]
  simp only [offers, told]
  rw [rebuildEntry_ended]
  rfl

/-! ## CANCEL_WAIT and the expiries (R46, R47, R53) -/

section
variable {s t : State} {h : HostId} {id : Nat}

theorem exec_cancelWait_of_taken (taken : s.takeDirCommand h .cancelWait [] = some (id, t)) :
    exec (.cancelWait h) s = .next (cancelWaitTaken h id t) := by
  simp [exec, execCancelWait, taken]

theorem cancelWaitTaken_of_none (none : t.wait h = none) : cancelWaitTaken h id t = t.reply h id .none [] := by
  simp [cancelWaitTaken, none]

theorem cancelWaitTaken_of_uncorrectable {r : WaitRecord} (wait : t.wait h = some r)
    (flawed : (t.dir.entries.get r.lease).chk = .uncorrectable) :
    cancelWaitTaken h id t = ((rebuildEntry r.lease t).dirFinding r.lease).reply h id .damaged [] := by
  simp only [cancelWaitTaken, wait, readEntry, flawed]

theorem cancelWaitTaken_of_sound {r : WaitRecord} (wait : t.wait h = some r) (sound : EntrySound t r.lease) :
    cancelWaitTaken h id t
      = (endWait h r t).1.reply h id .ok [word r.lease.val, word r.kind.code, word (endWait h r t).2] := by
  simp only [cancelWaitTaken, wait, readEntry_sound sound]

/-- A wait taken out of its lease: out of the waiter list, or out of the slot of a pending upgrade, the record emptied. -/
def waitEnded (h : HostId) (l : LeaseId) (k : WaitKind) (s : State) : State :=
  (s.putEntry l (if k = .upgrade then { s.entry l with upgrade := none }
    else { s.entry l with waiters := (s.entry l).waiters.filter fun w => w.1 ≠ h })).setWait h none

/-- A wait ends by leaving its lease, and a scan follows unless the lease is STRANDED. -/
theorem endWait_eq (h : HostId) (r : WaitRecord) (s : State) : endWait h r s =
    if (s.entry r.lease).state = .stranded then (waitEnded h r.lease r.kind s, 0)
    else grantScan r.lease (waitEnded h r.lease r.kind s) := by
  unfold endWait waitEnded
  cases r.kind with
  | upgrade => exact dropUpgrade_eq ..
  | claimShared => exact dropClaimWait_eq ..
  | claimExclusive => exact dropClaimWait_eq ..

theorem expireWait_of_sound {r : WaitRecord} (sound : EntrySound s r.lease) :
    expireWait h r s = (endWait h r (s.offerDir h (.waitExpired r.lease r.kind))).1 := by
  simp only [expireWait, readEntry_sound sound]

theorem expireWait_of_uncorrectable {r : WaitRecord} (flawed : (s.dir.entries.get r.lease).chk = .uncorrectable) :
    expireWait h r s = (rebuildEntry r.lease s).dirFinding r.lease := by
  simp only [expireWait, readEntry, flawed]

/-- An expiry that is due is taken at its lease, by the row of its kind. -/
theorem exec_waitExpiry_of_due {l : LeaseId} {k : WaitKind} (due : s.wait h = some ⟨l, k, some 0⟩) :
    exec (if k = .upgrade then .upgradeWaitExpiry h else .claimWaitExpiry h) s = .next (expireWait h ⟨l, k, some 0⟩ s) := by
  by_cases upgrade : k = .upgrade
  · rw [if_pos upgrade]
    simp [exec, execUpgradeWaitExpiry, due, upgrade]
  · rw [if_neg upgrade]
    simp [exec, execClaimWaitExpiry, due, upgrade]

end

/-- Settles O15: work at a lease whose entry reads uncorrectable ends with the rebuild. -/
theorem damagedEntryIsRebuilt : Obligations.DamagedEntryIsRebuilt := by
  intro s t h l id flawed u
  refine ⟨fun lease a b x mem taken names mode => ?_, fun taken ⟨k, d, wait⟩ => ?_, rebuilt_finding_eq l t⟩
  · obtain ⟨work, runs⟩ := exec_leaseCommand mem mode id
    rw [runs s t taken, atLease_of_uncorrectable work names flawed]
  · rw [exec_cancelWait_of_taken taken, cancelWaitTaken_of_uncorrectable wait flawed]

/-- Settles O21: CANCEL_WAIT ends the wait that the record names. -/
theorem cancelWaitEndsWait : Obligations.CancelWaitEndsWait := by
  intro s t h id taken
  rw [exec_cancelWait_of_taken taken]
  refine ⟨fun none => by rw [cancelWaitTaken_of_none none], fun l k d wait sound => ?_⟩
  rw [cancelWaitTaken_of_sound wait sound, endWait_eq]
  rfl

/-- Settles O22: an expiry offers WAIT_EXPIRED and ends the wait, or finds the entry uncorrectable. -/
theorem leaseWaitExpiries : Obligations.LeaseWaitExpiries := by
  intro s h l k due i
  rw [exec_waitExpiry_of_due due]
  refine ⟨fun sound => ?_, fun flawed => by rw [expireWait_of_uncorrectable flawed]⟩
  rw [expireWait_of_sound sound, endWait_eq]
  exact congrArg Host.Outcome.next (apply_ite Prod.fst ..)

/-! ## CLAIM (R29, R30, R31, R44) -/

section
variable {t : State} {h : HostId} {l : LeaseId} (id : Nat) {m : LeaseMode} {lease wait : Word}

theorem claimEntry_of_sentAway (away : (t.entry l).sentAway h = true) :
    claimEntry h id l m wait t = t.reply h id .inTransit [] := by
  simp [claimEntry, away]

theorem claimEntry_of_held (away : (t.entry l).sentAway h = false) (held : (t.entry l).heldBy h = true) :
    claimEntry h id l m wait t = t.reply h id .held [] := by
  simp [claimEntry, away, held]

/-- A claim has to wait behind the lease as it stands: exclusive, or shared and not free to share at once. -/
def LeaseEntry.holdsUp (e : LeaseEntry) (m : LeaseMode) : Prop :=
  e.state = .exclusive ∨ (e.state = .shared ∧ (m = .exclusive ∨ e.waiters ≠ [] ∨ e.upgrade ≠ none))

theorem claimHeldUp_of_no_wait {st : Status} {ws : List Word} :
    claimHeldUp h id l m 0#16 st ws t = t.reply h id st ws := if_pos rfl

theorem claimHeldUp_of_wait {st : Status} {ws : List Word} (waits : wait ≠ 0#16) :
    claimHeldUp h id l m wait st ws t = claimQueued h id l m wait t := if_neg waits

variable (away : (t.entry l).sentAway h = false) (held : (t.entry l).heldBy h = false)
include away held

theorem claimEntry_of_waiting (waits : wait ≠ 0#16) (waiting : t.wait h ≠ none) :
    claimEntry h id l m wait t = t.reply h id .waiting [] := by
  simp only [claimEntry, away, held, waits, Option.isSome_iff_ne_none.mpr waiting, ne_eq, not_false_eq_true, and_self, if_true,
    Bool.false_eq_true, if_false]

variable (clear : wait = 0#16 ∨ t.wait h = none)
include clear

omit away held in
theorem no_wait_of_clear : ¬ (wait ≠ 0#16 ∧ (t.wait h).isSome = true) := by
  rintro ⟨waits, waiting⟩
  rcases clear with at_once | idle
  · exact waits at_once
  · simp [idle] at waiting

theorem claimEntry_of_free_shared (free : (t.entry l).state = .free) : claimEntry h id l .shared wait t =
    claimGranted h id l .shared { t.entry l with state := .shared, holders := HostSet.single h } t := by
  simp only [claimEntry, away, held, no_wait_of_clear clear, free, Bool.false_eq_true, if_false]

theorem claimEntry_of_free_exclusive (free : (t.entry l).state = .free) : claimEntry h id l .exclusive wait t =
    claimGranted h id l .exclusive ((t.entry l).enterExclusive h) t := by
  simp only [claimEntry, away, held, no_wait_of_clear clear, free, Bool.false_eq_true, if_false]

theorem claimEntry_of_share (shared : (t.entry l).state = .shared) (waiters : (t.entry l).waiters = [])
    (upgrade : (t.entry l).upgrade = none) : claimEntry h id l .shared wait t =
      claimGranted h id l .shared { t.entry l with holders := HostSet.insert (t.entry l).holders h } t := by
  simp only [claimEntry, away, held, no_wait_of_clear clear, shared, waiters, upgrade, and_self, if_true,
    Bool.false_eq_true, if_false]

theorem claimEntry_of_holdsUp (busy : (t.entry l).holdsUp m) : claimEntry h id l m wait t =
    claimHeldUp h id l m wait .busy [word (t.entry l).state.code, (t.entry l).generation] t := by
  unfold claimEntry
  simp only [away, held, no_wait_of_clear clear, Bool.false_eq_true, if_false]
  rcases busy with exclusive | ⟨shared, exclusive | queue⟩
  · simp only [exclusive]
  · simp only [shared, exclusive]
  · cases m with
    | shared =>
      have notFree : ¬ ((t.entry l).waiters = [] ∧ (t.entry l).upgrade = none) := not_and_or.mpr queue
      simp only [shared, if_neg notFree]
    | exclusive => simp only [shared]

theorem claimEntry_of_stranded (stranded : (t.entry l).state = .stranded) : claimEntry h id l m wait t =
    claimHeldUp h id l m wait .stranded
      [word (causeCode (t.entry l).cause), optHostWord (t.entry l).owner, (t.entry l).generation] t := by
  simp only [claimEntry, away, held, no_wait_of_clear clear, stranded, Bool.false_eq_true, if_false]

end

/-- Settles O12: a claim that no check stops, of a FREE lease or of a SHARED one with nothing ahead of it. -/
theorem claimGrantedAtOnce : Obligations.ClaimGrantedAtOnce := by
  intro s t h l lease mode wait id taken names sound e away held clear
  refine ⟨fun free shared => ?_, fun free exclusive => ?_, fun share shared waiters upgrade => ?_⟩
  · subst shared
    rw [exec_claim_of_sound taken names sound parseMode_shared, claimEntry_of_free_shared id away held clear free, claimGranted,
      word_of_toNat names]
    rfl
  · subst exclusive
    rw [exec_claim_of_sound taken names sound parseMode_exclusive, claimEntry_of_free_exclusive id away held clear free,
      claimGranted, word_of_toNat names]
    rfl
  · subst shared
    rw [exec_claim_of_sound taken names sound parseMode_shared, claimEntry_of_share id away held clear share waiters upgrade,
      claimGranted, word_of_toNat names]
    rfl

theorem parsedMode_exclusive_iff {mode : Word} (known : mode = 1#16 ∨ mode = 2#16) :
    (if mode = 1#16 then LeaseMode.shared else .exclusive) = .exclusive ↔ mode = 2#16 := by
  rcases known with rfl | rfl <;> decide

/-- The mode's code is the mode argument. -/
theorem parsedMode_code {mode : Word} (known : mode = 1#16 ∨ mode = 2#16) :
    word (if mode = 1#16 then LeaseMode.shared else .exclusive).code = mode := by
  rcases known with rfl | rfl <;> rfl

theorem parsedMode_waitKind (mode : Word) : (if mode = 1#16 then LeaseMode.shared else .exclusive).waitKind
    = if mode = 1#16 then .claimShared else .claimExclusive :=
  apply_ite LeaseMode.waitKind ..

theorem parseDeadline_eq (wait : Word) : parseDeadline wait = if wait.toNat = 65535 then none else some wait.toNat := rfl

/-- The effect and the words of a claim that queues, by its argument words. -/
theorem claimQueued_of_args {t : State} {h : HostId} {l : LeaseId} {lease mode wait : Word} (id : Nat)
    (names : lease.toNat = l.val) (known : mode = 1#16 ∨ mode = 2#16) :
    claimQueued h id l (if mode = 1#16 then .shared else .exclusive) wait t =
      ((t.putEntry l { t.entry l with
          waiters := (t.entry l).waiters ++ [(h, if mode = 1#16 then .shared else .exclusive)] }).setWait h
        (some ⟨l, if mode = 1#16 then .claimShared else .claimExclusive,
          if wait.toNat = 65535 then none else some wait.toNat⟩)).reply h id .queued
        [lease, mode, word ((t.entry l).waiters.length + 1), word (t.entry l).state.code, (t.entry l).generation, wait] := by
  rw [claimQueued, parsedMode_code known, parsedMode_waitKind, deadlineWord_parseDeadline, parseDeadline_eq, word_of_toNat names]
  simp only [List.length_append, List.length_cons, List.length_nil]

/-- Settles O13: the checks, then BUSY, STRANDED or the tail of the waiter list. -/
theorem claimRefusedOrQueued : Obligations.ClaimRefusedOrQueued := by
  intro s t h l lease mode wait id taken names sound known e m deadline
  rw [exec_claim_of_sound taken names sound (parseMode_of_known known)]
  have holdsUp (busy : e.state = .exclusive ∨ (e.state = .shared ∧ (mode = 2#16 ∨ e.waiters ≠ [] ∨ e.upgrade ≠ none))) :
      e.holdsUp m := by
    rwa [← parsedMode_exclusive_iff known] at busy
  refine ⟨fun away => ?_, fun away held => ?_, fun away held => ⟨fun waits waiting => ?_, fun at_once busy => ?_,
    fun at_once stranded => ?_, fun waits idle state => ?_⟩⟩
  · rw [claimEntry_of_sentAway id away]
  · rw [claimEntry_of_held id away held]
  · rw [claimEntry_of_waiting id away held waits waiting]
  · rw [claimEntry_of_holdsUp id away held (.inl at_once) (holdsUp busy), at_once, claimHeldUp_of_no_wait]
  · rw [claimEntry_of_stranded id away held (.inl at_once) stranded, at_once, claimHeldUp_of_no_wait]
  · rw [← claimQueued_of_args id names known]
    rcases state with exclusive | stranded | shared
    · rw [claimEntry_of_holdsUp id away held (.inr idle) (.inl exclusive), claimHeldUp_of_wait id waits]
    · rw [claimEntry_of_stranded id away held (.inr idle) stranded, claimHeldUp_of_wait id waits]
    · rw [claimEntry_of_holdsUp id away held (.inr idle) (holdsUp (.inr shared)), claimHeldUp_of_wait id waits]

/-! ## REPAIR (R76, R77) -/

theorem exec_repair_of_sound {s t : State} {h : HostId} {l : LeaseId} {lease : Word} {id : Nat}
    (taken : s.takeDirCommand h .repair [lease] = some (id, t)) (names : lease.toNat = l.val) (sound : EntrySound t l) :
    exec (.repair h lease) s = .next (repairEntry h id l t) := by
  simp [exec, execRepair, taken, atLease_of_sound h id _ names sound]

theorem State.waitsOn_eq (s : State) (h : HostId) (l : LeaseId) :
    s.waitsOn h l = decide ((s.wait h).map WaitRecord.lease = some l) := by
  unfold State.waitsOn
  cases s.wait h <;> simp

theorem word_waited (waited : Bool) : word (if waited then 1 else 0) = if waited then 1#16 else 0#16 := by
  cases waited <;> rfl

/-- Settles O23: the repair of a STRANDED lease, its value in two words, or NOT_STRANDED. -/
theorem repairTakesStrandedLease : Obligations.RepairTakesStrandedLease := by
  intro s t h l lease id taken names sound e
  rw [exec_repair_of_sound taken names sound]
  refine ⟨fun other => by rw [repairEntry, if_neg other], fun stranded =>
    ⟨highWord e.value, lowWord e.value, toNat_eq_highWord_lowWord _, ?_⟩⟩
  rw [repairEntry, if_pos stranded, ← State.waitsOn_eq, word_of_toNat names]
  dsimp only
  rw [word_waited]
  rfl

end Sys2Proof.Machine
end

section
/-! PROOF. Joins and departures: the directory's part of a departure lease by lease (O24), what it leaves of the host
(O25), the rows that take a join or a departure (O26), and the store's part of a departure (O41, O42). -/

namespace Sys2Proof.Machine

open Sys2Proof

/-! ## The directory's part at one lease (R64 to R69) -/

section
variable {s : State} {h : HostId} {l : LeaseId}

theorem departAtLease_of_holder (sound : EntrySound s l) (holder : HostSet.has (s.entry l).holders h = true) :
    departAtLease h l s = (dropHolder l h s).1 := by
  simp only [departAtLease, readEntry_sound sound, holder, if_true]

section
variable (sound : EntrySound s l) (holder : HostSet.has (s.entry l).holders h = false)
include sound holder

theorem departAtLease_of_owner (acts : (s.entry l).acts h = true) (here : (s.entry l).transit = none) :
    departAtLease h l s = strandEntry l .departed s := by
  simp only [departAtLease, readEntry_sound sound, holder, acts, here, Option.isNone_none, Bool.and_self, if_true,
    Bool.false_eq_true, if_false]

theorem departAtLease_of_sender (acts : (s.entry l).acts h = true) (transit : (s.entry l).transit ≠ none) :
    departAtLease h l s = s.putEntry l { s.entry l with ownerPresent := false } := by
  simp only [departAtLease, readEntry_sound sound, holder, acts, Option.isNone_eq_false_iff.mpr (Option.isSome_iff_ne_none.mpr transit),
    Bool.and_false, if_true, Bool.false_eq_true, if_false]

theorem departAtLease_of_waiter (acts : (s.entry l).acts h = false) (waiter : (s.entry l).hasWaiter h) :
    departAtLease h l s = (dropClaimWait l h s).1 := by
  simp only [departAtLease, readEntry_sound sound, holder, acts, (LeaseEntry.any_waiter_iff ..).mpr waiter, Bool.false_and,
    if_true, Bool.false_eq_true, if_false]

end

theorem departAtLease_of_no_role (sound : EntrySound s l) (no_role : ¬ (s.entry l).hasRole h) : departAtLease h l s = s := by
  obtain ⟨holder, rest⟩ := not_or.mp no_role
  obtain ⟨acts, waiter⟩ := not_or.mp rest
  rw [Bool.not_eq_true] at holder acts
  have queue := mt (LeaseEntry.any_waiter_iff ..).mp waiter
  rw [Bool.not_eq_true] at queue
  simp only [departAtLease, readEntry_sound sound, holder, acts, queue, Bool.false_and, Bool.false_eq_true, if_false]

theorem departLease_of_due {p : Departing} (departing : s.dir.departing.get h = some p) (due : l ∈ p.due) :
    departLease h l s = (departAtLease h l s).leaseDone h p l := by
  simp only [departLease, departing, if_pos due]
  rfl

theorem strandEntry_of_owner (own : (s.entry l).owner = some h) : strandEntry l .departed s =
    (s.entry l).waiters.foldl (fun s w => s.offerDir w.1 (.stranded l (some h) .departed)) (s.putEntry l { s.entry l with
      state := .stranded, cause := some .departed, transit := none, ownerPresent := false }) := by
  simp only [strandEntry, offerStranded, State.putEntry_entry_same, own]

theorem startDeparture_of_first {c : DepartureCause} {k : Nat} {rest : List PathItem}
    (path : s.dir.path = .departure h c k :: rest) (clear : transferAhead h k s.store.path = false) :
    startDeparture h s = some { s with dir := { s.dir with
      path := rest, joined := upd s.dir.joined h none, departing := upd s.dir.departing h (some ⟨k, allLeases⟩) } } := by
  simp [startDeparture, path, clear]

end

/-- Settles O24: the start of a departure, and at each lease the host's role in it. -/
theorem directoryDepartureSteps : Obligations.DirectoryDepartureSteps := by
  intro s h
  refine ⟨?_, fun p l departing due sound => ?_⟩
  · intro c k rest path clear u
    have start : startDeparture h s = some u := startDeparture_of_first path clear
    refine ⟨?_, ?_⟩
    · show Host.Outcome.next ((startDeparture h s).getD s) = _
      rw [start]
      rfl
    · show Host.Outcome.next (allLeases.foldl _ ((startDeparture h s).getD s)) = _
      rw [start]
      rfl
  · intro e left finish
    have done : departLease h l s = finish (departAtLease h l s) := departLease_of_due departing due
    rw [done]
    refine ⟨congrArg Host.Outcome.next done, fun holder => ?_, fun holder acts here => ?_, fun holder acts transit => ?_,
      fun holder acts waiter => ?_, fun no_role => ?_⟩
    · rw [departAtLease_of_holder sound holder]
      rfl
    · rw [departAtLease_of_owner sound holder acts here, strandEntry_of_owner ((LeaseEntry.acts_iff ..).mp acts).2.1]
    · rw [departAtLease_of_sender sound holder acts transit]
    · rw [departAtLease_of_waiter sound holder acts waiter, dropClaimWait_eq, apply_ite Prod.fst]
      rfl
    · rw [departAtLease_of_no_role sound no_role]

/-! ## Nothing of the host is left (R65) -/

/-- The departure of h has some leases left, all of them in the list, or has none left. -/
def DepartsWithin (h : HostId) (ls : List LeaseId) (s : State) : Prop :=
  ∀ p, s.dir.departing.get h = some p → p.due ≠ [] ∧ p.due ⊆ ls

section
variable {s : State} {h : HostId} {l : LeaseId} {ls : List LeaseId}

theorem Departing.without_due {p q : Departing} (left : p.without l = some q) :
    q.due ≠ [] ∧ ∀ x ∈ q.due, x ∈ p.due ∧ x ≠ l := by
  unfold Departing.without at left
  dsimp only at left
  split at left
  · cases left
  · next some_left =>
    cases left
    exact ⟨some_left, fun x mem => by simpa using mem⟩

theorem departLease_within (within : DepartsWithin h (l :: ls) s) : DepartsWithin h ls (departLease h l s) := by
  intro p departing
  cases departs : s.dir.departing.get h with
  | none =>
    simp [departLease, departs] at departing
  | some q =>
    obtain ⟨some_left, all⟩ := within q departs
    by_cases due : l ∈ q.due
    · have left : q.without l = some p := by
        rw [← departing, departLease_of_due departs due]
        exact (upd_get_same ..).symm
      obtain ⟨some_left, rest⟩ := Departing.without_due left
      exact ⟨some_left, fun x mem => (List.mem_cons.mp (all (rest x mem).1)).resolve_left (rest x mem).2⟩
    · have same : departLease h l s = s := by simp [departLease, departs, due]
      rw [same, departs] at departing
      cases departing
      exact ⟨some_left, fun x mem => (List.mem_cons.mp (all mem)).resolve_left fun e => due (e ▸ mem)⟩

/-- With every lease in turn the departure comes to its end. -/
theorem foldl_departLease_within (within : DepartsWithin h ls s) :
    (ls.foldl (fun s l => departLease h l s) s).dir.departing.get h = none := by
  induction ls generalizing s with
  | nil =>
    cases departs : s.dir.departing.get h with
    | none => exact departs
    | some p =>
      obtain ⟨some_left, all⟩ := within p departs
      exact absurd (List.subset_nil.mp all) some_left
  | cons l ls ih => exact ih (departLease_within within)

theorem departLease_joined (h : HostId) (s : State) (l : LeaseId) : (departLease h l s).dir.joined = s.dir.joined := by
  rcases departLease_cases h l s with same | ⟨p, -, -, done⟩
  · rw [same]
  · rw [done]
    exact (departAtLease_step h l s).at_entry.served.dirJoined

/-- In a sound directory a host with a pending upgrade holds its lease, so a wait is always a role. -/
theorem DirectoryOk.role_of_wait (ok : DirectoryOk s) {r : WaitRecord} (wait : s.wait h = some r) :
    (s.entry r.lease).hasRole h := by
  obtain ⟨entries, ⟨-, -, matched⟩, -⟩ := ok
  rcases matched h r wait with ⟨-, waiter⟩ | ⟨-, waiter⟩ | ⟨-, pending⟩
  · exact .inr (.inr (List.mem_map_of_mem waiter))
  · exact .inr (.inr (List.mem_map_of_mem waiter))
  · left
    obtain ⟨-, -, fields⟩ := entries r.lease
    cases state : (s.entry r.lease).state <;> simp only [state] at fields
    · obtain ⟨-, -, -, slot, -⟩ := fields
      simp [pending] at slot
    · obtain ⟨-, -, -, -, -, upgrader⟩ := fields
      exact (upgrader h pending).1
    · obtain ⟨-, -, slot, -⟩ := fields
      simp [pending] at slot
    · obtain ⟨-, slot, -⟩ := fields
      simp [pending] at slot

end

/-- Settles O25: after every lease in turn the directory counts the host neither JOINED nor departing, and in a sound
directory it then has no role. -/
theorem departedHostHasNoRole : Obligations.DepartedHostHasNoRole := by
  intro s t h c k rest ok path clear runs
  have start := startDeparture_of_first path clear
  have whole : allLeases.foldl (fun s l => departLease h l s) ((startDeparture h s).getD s) = t := Host.Outcome.next.inj runs
  have okT : DirectoryOk t := by
    rw [← whole]
    exact (foldl_departLease_leasesStep h (List.nodup_finRange 64) _).ok ((startDeparture_leasesStep h s).ok ok)
  rw [start, Option.getD_some] at whole
  have departed : t.dir.departing.get h = none := by
    rw [← whole]
    refine foldl_departLease_within fun p departing => ?_
    have all : some (⟨k, allLeases⟩ : Departing) = some p := (upd_get_same ..).symm.trans departing
    cases all
    exact ⟨(by decide : allLeases ≠ []), List.Subset.refl _⟩
  have out : t.dir.joined.get h = none := by
    rw [← whole, foldl_keeps (fun s => s.dir.joined) (departLease_joined h)]
    exact upd_get_same ..
  have no_role (l : LeaseId) : ¬ (t.entry l).hasRole h := fun role => by
    rcases okT.2.2 l h role with joined | ⟨p, departing, -⟩
    · simp [out] at joined
    · simp [departed] at departing
  refine ⟨out, departed, Option.eq_none_iff_forall_ne_some.mpr fun r wait => no_role r.lease (okT.role_of_wait wait), no_role⟩

/-! ## Joins and departures taken (R6, R138, R175) -/

theorem exec_portDeparture_of_first {s : State} {h : HostId} {c : DepartureCause} {rest : List DepartureCause}
    (first : (s.port h).departures = c :: rest) : exec (.portDeparture h) s = .next (s.setPort h { s.port h with
      departures := rest
      args := []
      replyReady := false
      reply := if (s.port h).replyReady = true then Vector.replicate 8 0#16 else (s.port h).reply
      replyPos := if (s.port h).replyReady = true then 0 else (s.port h).replyPos }) := by
  simp only [exec, execPortDeparture, first]
  cases ready : (s.port h).replyReady <;> simp

/-- Settles O26: each block takes the join or the departure that is first on its path. -/
theorem joinsAndDeparturesTaken : Obligations.JoinsAndDeparturesTaken := by
  refine fun s h k c => ⟨fun rest path => ⟨fun done => ?_, fun unfinished => ?_⟩, fun rest path => ?_, fun rest path => ?_,
    fun rest path => ?_, fun rest first => exec_portDeparture_of_first first⟩
  · simp [exec, execDirectoryJoin, path, done]
  · simp [exec, execDirectoryJoin, path, unfinished]
  · simp [exec, execStoreJoin, path]
  · simp [exec, execNoticeUnitJoin, path]
  · simp [exec, execNoticeUnitDeparture, path]

/-! ## The store's part of a departure (R101, R127) -/

theorem exec_storeDeparture_of_taken {s : State} {h : HostId} {c : DepartureCause} {k : Nat} {rest : List StoreItem}
    (taken : takeStoreItem s.store.path = some (.departure h c k, rest)) :
    exec (.storeDeparture h) s = .next (departStore h (s.setStorePath rest)) := by
  simp [exec, execStoreDeparture, taken]

/-- Settles O42: the store after a departure is sound and names the host nowhere. -/
theorem departedHostLeavesStore : Obligations.DepartedHostLeavesStore := by
  intro s t h c k rest ok taken runs
  rw [exec_storeDeparture_of_taken taken] at runs
  have run : departStore h (s.setStorePath rest) = t := Host.Outcome.next.inj runs
  obtain ⟨okT, space, assembling, opened, queue⟩ :=
    departStore_clean (h := h) ((routine_setStorePath s rest).objects.store_ok ok)
  have out : (departStore h (s.setStorePath rest)).store.joined.get h = none := by
    rw [(departStore_kept h (s.setStorePath rest)).served.storeJoined]
    exact upd_get_same ..
  rw [run] at okT space assembling opened queue out
  obtain ⟨-, ⟨-, listedIff, reservedIff, assemblingIff, -⟩, -⟩ := okT
  refine ⟨out, space, fun listed => ?_, queue, assembling, opened, fun d source => ⟨fun reserved => ?_, fun composing => ?_⟩⟩
  · obtain ⟨n, j, waiting⟩ := (listedIff h).mp listed
    simp [space] at waiting
  · obtain ⟨j, holds⟩ := (reservedIff h d).mpr ⟨reserved, source⟩
    simp [space] at holds
  · have holds := (assemblingIff h d).mpr ⟨composing, source⟩
    simp [assembling] at holds

/-! ## On a store whose objects read sound (R101, R127) -/

section
variable {s t u : State} {h : HostId} {d : DescId}

theorem StoreSound.of_store (sound : StoreSound s) (same : t.store = s.store) : StoreSound t := by
  unfold StoreSound
  rwa [same]

theorem freeDesc_sound (d : DescId) (sound : StoreSound s) : StoreSound (freeDesc d s) := by
  rw [freeDesc_of_soundMap d sound.2]
  refine ⟨fun o => ?_, fun c => ?_⟩
  · rw [clearDesc_descs]
    rcases eq_or_ne d o with rfl | ne
    · rw [upd_get_same]
    · rw [upd_get_ne _ _ ne]
      exact sound.1 o
  · rw [clearDesc_eq]
    show ((mapFreed s d 0).get c).chk = .sound
    rw [mapFreed_eq, vector_get_ofFn]
    split
    · rfl
    · exact sound.2 c

theorem freeDesc_desc_ne {o : DescId} (sound : StoreSound s) (ne : d ≠ o) : (freeDesc d s).desc o = s.desc o := by
  rw [freeDesc_of_soundMap d sound.2, clearDesc_desc_ne _ ne]

theorem freeDesc_stream (sound : StoreSound s) : (freeDesc d s).stream h = (s.stream h).drop d := by
  rw [freeDesc_of_soundMap d sound.2, clearDesc_stream]

theorem readDescCore_of_sound (sound : StoreSound s) (d : DescId) : readDescCore d s = (false, s) := by
  simp [readDescCore, sound.1 d]

theorem freeQuietly_of_sound (sound : StoreSound s) (d : DescId) : freeQuietly d s = freeDesc d s := by
  simp only [freeQuietly, readDescCore_of_sound sound d]

/-- A message of the queue freed, its carried transfer failed, and bounced. -/
def discarded (x : Descriptor) (m : Message) (d : DescId) (u : State) : State :=
  bounce x m .destDeparted (returnedLease m.carried (failCarried d m u).1) (freeDesc d (failCarried d m u).2)

theorem discardOne_of_sound {m : Message} (sound : StoreSound u) (msg : (u.desc d).msg = some m) :
    discardOne u d = discarded (u.desc d) m d u := by
  simp only [discardOne, readDescCore_of_sound sound d, msg]
  rfl

theorem failCarried_store (d : DescId) (m : Message) (u : State) : (failCarried d m u).2.store = u.store :=
  (failCarried_transferWork d m u).store

theorem discarded_store (x : Descriptor) (m : Message) (d : DescId) (u : State) :
    (discarded x m d u).store = (freeDesc d (failCarried d m u).2).store := bounce_store ..

theorem discarded_sound (x : Descriptor) (m : Message) (d : DescId) (sound : StoreSound u) : StoreSound (discarded x m d u) :=
  (freeDesc_sound d (sound.of_store (failCarried_store d m u))).of_store (discarded_store x m d u)

theorem discarded_desc_ne (x : Descriptor) (m : Message) {o : DescId} (sound : StoreSound u) (ne : d ≠ o) :
    (discarded x m d u).desc o = u.desc o := by
  rw [State.desc, discarded_store]
  show (freeDesc d (failCarried d m u).2).desc o = _
  rw [freeDesc_desc_ne (sound.of_store (failCarried_store d m u)) ne, State.desc, failCarried_store, State.desc]

theorem discarded_readPos (x : Descriptor) (m : Message) (d : DescId) (sound : StoreSound u) :
    ((discarded x m d u).stream h).readPos = (u.stream h).readPos := by
  rw [State.stream, discarded_store]
  show ((freeDesc d (failCarried d m u).2).stream h).readPos = _
  rw [freeDesc_stream (sound.of_store (failCarried_store d m u)), StreamRecord.drop, State.stream, failCarried_store, State.stream]

/-- What the discards of a queue leave of a store whose objects read sound: each message is still as it was when its turn
comes. -/
theorem foldl_discardOne_of_sound {ds : List DescId} (distinct : ds.Nodup) {discard : State → DescId → State}
    (is : ∀ u d m, (s.desc d).msg = some m → discard u d = discarded (s.desc d) m d u) (sound : StoreSound u)
    (same : ∀ d ∈ ds, u.desc d = s.desc d) (full : ∀ d ∈ ds, ∃ m, (s.desc d).msg = some m) :
    ds.foldl discardOne u = ds.foldl discard u
      ∧ ((ds.foldl discardOne u).stream h).readPos = (u.stream h).readPos := by
  induction ds generalizing u with
  | nil => exact ⟨rfl, rfl⟩
  | cons d ds ih =>
    obtain ⟨fresh, distinct⟩ := List.nodup_cons.mp distinct
    obtain ⟨sameD, same⟩ := List.forall_mem_cons.mp same
    obtain ⟨⟨m, msg⟩, full⟩ := List.forall_mem_cons.mp full
    have one : discardOne u d = discarded (s.desc d) m d u := by
      rw [discardOne_of_sound sound (m := m) (by rw [sameD, msg]), sameD]
    obtain ⟨all, readPos⟩ := ih distinct (discarded_sound (s.desc d) m d sound) (fun o mem => by
      rw [discarded_desc_ne _ m sound (ne_of_mem_of_not_mem mem fresh).symm, same o mem]) full
    rw [List.foldl_cons, List.foldl_cons, one, is u d m msg]
    exact ⟨all, readPos.trans (discarded_readPos _ m d sound)⟩

/-- The queue of h and its messages are as they were, on a store whose objects read sound. -/
structure QueueIntact (h : HostId) (s u : State) : Prop where
  sound : StoreSound u
  queue : u.queue h = s.queue h
  desc : ∀ d ∈ s.queue h, u.desc d = s.desc d
  readPos : (u.stream h).readPos = (s.stream h).readPos

theorem QueueIntact.freeDesc (a : QueueIntact h s u) (out : d ∉ s.queue h) : QueueIntact h s (freeDesc d u) where
  sound := freeDesc_sound d a.sound
  queue := by
    rw [freeDesc_queue, a.queue]
    exact List.filter_eq_self.mpr fun o mem => decide_eq_true (ne_of_mem_of_not_mem mem out)
  desc o mem := by rw [freeDesc_desc_ne a.sound (ne_of_mem_of_not_mem mem out).symm, a.desc o mem]
  readPos := by rw [freeDesc_stream a.sound, StreamRecord.drop, a.readPos]

theorem QueueIntact.setSpace (a : QueueIntact h s u) (r : SpaceRecord) : QueueIntact h s (u.setSpace h r) :=
  ⟨a.sound, a.queue, a.desc, a.readPos⟩

/-- A descriptor in a queue is QUEUED or OPEN. -/
theorem StoreOk.not_queued (ok : StoreOk s) (state : (s.desc d).state = .reserved ∨ (s.desc d).state = .assembling) :
    d ∉ s.queue h := by
  obtain ⟨-, ⟨-, -, -, -, -, -, -, queueIff⟩, -⟩ := ok
  intro mem
  obtain ⟨queued, -⟩ := (queueIff h d).mp mem
  rcases state with is | is <;> rw [is] at queued <;> exact queued.elim nofun nofun

theorem StoreOk.message_of_queued (ok : StoreOk s) (mem : d ∈ s.queue h) : ∃ m, (s.desc d).msg = some m := by
  obtain ⟨-, ⟨-, -, -, -, -, -, -, queueIff⟩, -⟩ := ok
  obtain ⟨-, dest⟩ := (queueIff h d).mp mem
  obtain ⟨m, msg, -⟩ := Option.map_eq_some_iff.mp dest
  exact ⟨m, msg⟩

/-- A reserved descriptor freed leaves the assembling one where it is. -/
theorem freeDesc_assembling_of_reserved (sound : StoreSound u) (ok : StoreOk s) (same : (u.stream h).assembling = (s.stream h).assembling)
    (reserved : (s.desc d).state = .reserved) : ((freeDesc d u).stream h).assembling = (s.stream h).assembling := by
  rw [freeDesc_stream sound, ← same]
  refine if_neg fun assembling => ?_
  obtain ⟨-, ⟨-, -, -, assemblingIff, -⟩, -⟩ := ok
  have composing := ((assemblingIff h d).mp (same.symm.trans assembling)).1
  rw [reserved] at composing
  cases composing

end

/-- Settles O41: part 1 by the host's space record, part 2 by its stream, part 3 message by message. -/
theorem storeDepartureParts : Obligations.StoreDepartureParts := by
  intro s h c k rest taken sound ok t0 t1 t2 discard t3
  rw [exec_storeDeparture_of_taken taken]
  have part0 : QueueIntact h s t0 := ⟨sound, rfl, fun _ _ => rfl, rfl⟩
  have part1 : departSpace h t0 = t1 ∧ QueueIntact h s t1 ∧ (t1.stream h).assembling = (s.stream h).assembling := by
    have space0 : t0.space h = s.space h := rfl
    cases space : s.space h with
    | empty =>
      have is : t1 = t0 := by simp only [t1, space]
      rw [is]
      exact ⟨by simp only [departSpace, space0, space], part0, rfl⟩
    | waiting n j =>
      have is : t1 = (leaveSpaceList h t0).setSpace h .empty := by
        simp only [t1, space]
        rfl
      rw [is]
      exact ⟨by simp only [departSpace, space0, space], ⟨sound, rfl, fun _ _ => rfl, rfl⟩, rfl⟩
    | reserved d j =>
      have is : t1 = (freeDesc d t0).setSpace h .empty := by simp only [t1, space]
      have state := (ok.reserved_of_space space).1
      rw [is]
      refine ⟨by simp only [departSpace, space0, space, freeQuietly_of_sound part0.sound],
        (part0.freeDesc (ok.not_queued (.inl state))).setSpace .empty, ?_⟩
      have stream (u : State) : (u.setSpace h .empty).stream h = u.stream h := rfl
      rw [stream, freeDesc_assembling_of_reserved part0.sound ok rfl state]
  obtain ⟨run1, intact1, assembling1⟩ := part1
  have part2 : departAssembling h t1 = t2 ∧ QueueIntact h s t2 := by
    cases assembling : (s.stream h).assembling with
    | none =>
      have is : t2 = t1 := by simp only [t2, assembling]
      rw [is]
      exact ⟨by simp only [departAssembling, assembling1, assembling], intact1⟩
    | some d =>
      have is : t2 = freeDesc d t1 := by simp only [t2, assembling]
      obtain ⟨-, ⟨-, -, -, assemblingIff, -⟩, -⟩ := id ok
      have state := ((assemblingIff h d).mp assembling).1
      rw [is]
      exact ⟨by simp only [departAssembling, assembling1, assembling, freeQuietly_of_sound intact1.sound],
        intact1.freeDesc (ok.not_queued (.inr state))⟩
  obtain ⟨run2, intact2⟩ := part2
  have distinct : (s.queue h).Nodup := by
    obtain ⟨-, ⟨-, -, -, -, -, -, nodup, -⟩, -⟩ := ok
    exact nodup h
  obtain ⟨run3, readPos⟩ := foldl_discardOne_of_sound (h := h) distinct (discard := discard)
    (fun u d m msg => by simp only [discard, msg]; rfl) intact2.sound intact2.desc fun d mem => ok.message_of_queued mem
  have parts : departParts h t0 = t3 := by rw [departParts, run1, run2, intact2.queue, run3]
  have readPos3 : (t3.stream h).readPos = (s.stream h).readPos := by
    rw [← intact2.readPos, ← readPos, run3]
  show Host.Outcome.next (spaceScan ((departParts h t0).setStream h ⟨none, none, ((departParts h t0).stream h).readPos⟩)).1 = _
  rw [parts, readPos3]

end Sys2Proof.Machine
end

section
/-! PROOF. Space at the message store: the ends of space records (O28), the space scan step by step (O29), and BEGIN with
and without a reservation (O30, O31, O32, O60). -/

namespace Sys2Proof.Machine

open Sys2Proof

/-! ## The ends of a space wait and of a reservation (R96, R97, R98) -/

section
variable {s t : State} {h : HostId} {id : Nat}

theorem exec_spaceCancel_of_taken (taken : s.takeStoreCommand h .spaceCancel [] = some (id, t)) :
    exec (.spaceCancel h) s = .next (spaceCancelTaken h id t) := by
  simp [exec, execSpaceCancel, taken]

theorem spaceCancelTaken_of_empty (empty : t.space h = .empty) : spaceCancelTaken h id t = t.reply h id .none [] := by
  simp only [spaceCancelTaken, empty]

theorem spaceCancelTaken_of_waiting {n : Nat} {k : Option Nat} (waiting : t.space h = .waiting n k) :
    spaceCancelTaken h id t = (spaceScan (spaceLeft h t)).1.reply h id .ok
      [word 1, word n, word (spaceScan (spaceLeft h t)).2] := by
  simp only [spaceCancelTaken, waiting]
  rfl

theorem spaceCancelTaken_of_reserved {d : DescId} {k : Nat} (reserved : t.space h = .reserved d k) :
    spaceCancelTaken h id t = (spaceScan ((freeDesc d t).setSpace h .empty)).1.reply h id .ok
      [word 2, word (t.desc d).cellCount, word (spaceScan ((freeDesc d t).setSpace h .empty)).2] := by
  simp only [spaceCancelTaken, reserved]

end

/-- Settles O28: the record's end by what it is. -/
theorem spaceRecordEnds : Obligations.SpaceRecordEnds := by
  unfold Obligations.SpaceRecordEnds
  intro leave
  refine ⟨fun s t h id taken => ⟨fun empty => ?_, fun n k waiting => ?_, fun d k reserved => ?_⟩,
    fun s h => ⟨fun n waiting => ?_, fun d reserved => ?_⟩⟩
  · rw [exec_spaceCancel_of_taken taken, spaceCancelTaken_of_empty empty]
  · rw [exec_spaceCancel_of_taken taken, spaceCancelTaken_of_waiting waiting]
    rfl
  · rw [exec_spaceCancel_of_taken taken, spaceCancelTaken_of_reserved reserved]
    rfl
  · simp only [exec, execSpaceWaitExpiry, waiting]
    rfl
  · simp only [exec, execReservationLapse, reserved]

/-! ## The space scan (R95) -/

/-- One entry of the list dropped when it exceeds CELL_QUOTA. -/
def dropOneOver (s : State) (h : HostId) : State :=
  match s.space h with
  | .waiting n _ => if s.store.cellQuota < n then expireSpaceWait h n s else s
  | .empty | .reserved .. => s

theorem dropOverQuota_eq (s : State) : dropOverQuota s = s.store.spaceList.foldl dropOneOver s := rfl

section
variable {s : State} {h : HostId} {n : Nat} {k : Option Nat}

theorem dropOneOver_of_over (waiting : s.space h = .waiting n k) (exceeds : s.store.cellQuota < n) :
    dropOneOver s h = expireSpaceWait h n s := by
  simp only [dropOneOver, waiting, if_pos exceeds]

/-- Entries within the quota stay. -/
theorem foldl_dropOneOver_of_within {gs : List HostId}
    (within : ∀ g ∈ gs, ∀ m j, s.space g = .waiting m j → m ≤ s.store.cellQuota) : gs.foldl dropOneOver s = s := by
  induction gs with
  | nil => rfl
  | cons g gs ih =>
    obtain ⟨here, rest⟩ := List.forall_mem_cons.mp within
    have stays : dropOneOver s g = s := by
      unfold dropOneOver
      split
      · next m j waiting => exact if_neg (here m j waiting).not_gt
      · rfl
      · rfl
    rw [List.foldl_cons, stays, ih rest]

theorem dropOverQuota_of_within (within : ∀ g m j, s.space g = .waiting m j → m ≤ s.store.cellQuota) : dropOverQuota s = s :=
  foldl_dropOneOver_of_within fun g _ => within g

theorem dropOverQuota_append {pre post : List HostId} (list : s.store.spaceList = pre ++ h :: post)
    (waiting : s.space h = .waiting n k) (exceeds : s.store.cellQuota < n)
    (within : ∀ g ∈ pre, ∀ m j, s.space g = .waiting m j → m ≤ s.store.cellQuota) :
    dropOverQuota s = post.foldl dropOneOver (expireSpaceWait h n s) := by
  rw [dropOverQuota_eq, list, List.foldl_append, foldl_dropOneOver_of_within within, List.foldl_cons,
    dropOneOver_of_over waiting exceeds]

theorem spaceScan_congr {t : State} (same : dropOverQuota s = dropOverQuota t) : spaceScan s = spaceScan t := by
  unfold spaceScan
  rw [same]

theorem filter_middle {pre post : List HostId} (distinct : (pre ++ h :: post).Nodup) :
    ((pre ++ h :: post).filter fun g => g ≠ h) = pre ++ post := by
  rw [List.nodup_middle, List.nodup_cons] at distinct
  have others (gs : List HostId) (out : h ∉ gs) : (gs.filter fun g => g ≠ h) = gs :=
    List.filter_eq_self.mpr fun g mem => decide_eq_true (ne_of_mem_of_not_mem mem out)
  obtain ⟨out, -⟩ := distinct
  rw [List.mem_append, not_or] at out
  rw [List.filter_append, List.filter_cons, if_neg (by simp), others pre out.1, others post out.2]

/-- The scan after the first entry above the quota has left. -/
theorem spaceScan_of_over {pre post : List HostId} (ok : StoreOk s) (list : s.store.spaceList = pre ++ h :: post)
    (waiting : s.space h = .waiting n k) (exceeds : s.store.cellQuota < n)
    (within : ∀ g ∈ pre, ∀ m j, s.space g = .waiting m j → m ≤ s.store.cellQuota) :
    spaceScan s = spaceScan (({ s with store := { s.store with
      spaceList := pre ++ post, space := upd s.store.space h .empty } }).offerStore h (.spaceExpired n)) := by
  obtain ⟨-, ⟨nodup, -⟩, -⟩ := ok
  rw [list] at nodup
  have left : expireSpaceWait h n s = ({ s with store := { s.store with
      spaceList := pre ++ post, space := upd s.store.space h .empty } }).offerStore h (.spaceExpired n) := by
    rw [← filter_middle nodup, ← list]
    rfl
  rw [← left]
  have list' : (expireSpaceWait h n s).store.spaceList = pre ++ post := by
    rw [left]
    rfl
  apply spaceScan_congr
  rw [dropOverQuota_append list waiting exceeds within, dropOverQuota_eq, list', List.foldl_append,
    foldl_dropOneOver_of_within (gs := pre)]
  intro g mem m j wait
  have ne : h ≠ g := by
    rw [List.nodup_middle, List.nodup_cons] at nodup
    exact (ne_of_mem_of_not_mem (List.mem_append_left post mem) nodup.1).symm
  refine within g mem m j ?_
  rwa [show (expireSpaceWait h n s).space g = s.space g from upd_get_ne _ _ ne] at wait

/-- With nothing to drop and nothing to find, the scan is the grants. -/
theorem spaceScan_of_within (sound : StoreSound s) (within : ∀ g m j, s.space g = .waiting m j → m ≤ s.store.cellQuota) :
    spaceScan s = scanHeads s.store.spaceList s := by
  unfold spaceScan
  rw [dropOverQuota_of_within within]
  dsimp only
  rw [readDescs_sound sound.1, readMap_sound sound.2]
  split
  · next empty =>
    rw [empty]
    rfl
  · rfl

theorem scanHeads_of_fits {rest : List HostId} (waiting : s.space h = .waiting n k) (fit : fits h n s = true) :
    scanHeads (h :: rest) s = ((scanHeads rest (grantSpace h n s)).1, (scanHeads rest (grantSpace h n s)).2 + 1) := by
  simp only [scanHeads, waiting, fit, if_true]

theorem scanHeads_of_not_fits {rest : List HostId} (waiting : s.space h = .waiting n k) (not_fit : fits h n s ≠ true) :
    scanHeads (h :: rest) s = (s, 0) := by
  simp only [scanHeads, waiting, if_neg not_fit]

/-- A grant in one update. -/
theorem grantSpace_eq {d : DescId} (lowest : lowestFree s = some d) : grantSpace h n s = ({ s with store := { s.store with
      descs := upd s.store.descs d ⟨s.reservedFor h n, .sound⟩
      map := mapGiven s d 0 n
      spaceList := s.store.spaceList.filter fun g => g ≠ h
      space := upd s.store.space h (.reserved d s.settings.spaceHold) } }).offerStore h (.spaceReady n) := by
  rw [grantSpace_of_some lowest, spaceGiven, takeCells_eq]
  rfl

theorem upd_chk_sound {α : Type} {m : Nat} {v : Vector (Coded α) m} (sound : ∀ i, (v.get i).chk = .sound) (i : Fin m) (x : α)
    (j : Fin m) : ((upd v i ⟨x, .sound⟩).get j).chk = .sound := by
  rcases eq_or_ne i j with rfl | ne
  · rw [upd_get_same]
  · rw [upd_get_ne _ _ ne]
    exact sound j

theorem mapGiven_sound (sound : ∀ c, (s.store.map.get c).chk = .sound) (d : DescId) (pos n : Nat) (c : CellId) :
    ((mapGiven s d pos n).get c).chk = .sound := by
  unfold mapGiven
  dsimp only
  rw [vector_get_ofFn]
  split
  · rfl
  · exact sound c

theorem grantSpace_sound (sound : StoreSound s) {d : DescId} (lowest : lowestFree s = some d) :
    StoreSound (grantSpace h n s) := by
  rw [grantSpace_eq lowest]
  exact ⟨upd_chk_sound sound.1 d _, mapGiven_sound sound.2 d 0 n⟩

end

/-- The lowest FREE descriptor is FREE, and none below it is. -/
theorem lowestFree_iff (s : State) (d : DescId) :
    lowestFree s = some d ↔ (s.desc d).state = .free ∧ ∀ d' < d, (s.desc d').state ≠ .free := by
  rw [lowestFree, allDescs, List.find?_eq_some_iff_getElem]
  constructor
  · rintro ⟨free, i, inside, here, before⟩
    rw [List.getElem_finRange] at here
    refine ⟨of_decide_eq_true free, fun d' below => ?_⟩
    have lower : d'.val < i := by
      rw [← here] at below
      exact below
    have := before d'.val lower
    rw [List.getElem_finRange] at this
    simpa using this
  · rintro ⟨free, before⟩
    refine ⟨decide_eq_true free, d.val, by simp, ?_, fun j lower => ?_⟩
    · rw [List.getElem_finRange]
      rfl
    · rw [List.getElem_finRange]
      simpa using before ⟨j, lower.trans d.isLt⟩ lower

/-- Settles O29: the first entry above the quota, then the head, which is granted or stops the scan. -/
theorem spaceScanGrantsInOrder : Obligations.SpaceScanGrantsInOrder := by
  refine ⟨fun s => spaceScan_nil, fun s sound ok => ⟨fun pre h post n k => spaceScan_of_over ok, ?_⟩, lowestFree_iff,
    fun s h n k d lowest joined => ?_⟩
  · intro within h rest n k list waiting fit
    have scan : spaceScan s = scanHeads (h :: rest) s := by rw [spaceScan_of_within sound within, list]
    have fits_fit : fits h n s = true ↔ fit := by
      rw [fits_iff]
      tauto
    refine ⟨fun not_fit => ?_, fun is => ?_⟩
    · rw [scan, scanHeads_of_not_fits waiting (mt fits_fit.mp not_fit)]
    · obtain ⟨d, lowest⟩ := exists_lowestFree is.2.2.1
      have granted := grantSpace_eq (h := h) (n := n) lowest
      have list' : (grantSpace h n s).store.spaceList = rest := by
        obtain ⟨-, ⟨nodup, -⟩, -⟩ := ok
        rw [list] at nodup
        rw [granted]
        show (s.store.spaceList.filter fun g => g ≠ h) = rest
        rw [list]
        exact filter_middle (pre := []) nodup
      have within' (g : HostId) (m : Nat) (j : Option Nat) (wait : (grantSpace h n s).space g = .waiting m j) :
          m ≤ (grantSpace h n s).store.cellQuota := by
        rw [granted] at wait ⊢
        have wait' : (upd s.store.space h (.reserved d s.settings.spaceHold)).get g = .waiting m j := wait
        rcases eq_or_ne h g with rfl | ne
        · rw [upd_get_same] at wait'
          cases wait'
        · rw [upd_get_ne _ _ ne] at wait'
          exact within g m j wait'
      rw [scan, scanHeads_of_fits waiting (fits_fit.mpr is), spaceScan_of_within (grantSpace_sound sound lowest) within', list']
  · rw [grantSpace_eq lowest, State.reservedFor, joined]
    rfl

end Sys2Proof.Machine
end

section
/-! PROOF. BEGIN at the message store: its arguments, the refusals before its space is looked for (O30), the admission
(O31), the reservation (O32), and the send window as its room (O60). -/

namespace Sys2Proof.Machine

open Sys2Proof

/-! ## The arguments (R104) -/

theorem parseClass_of_code {cls : Word} {c : MsgClass} (is : cls.toNat = c.code) : parseClass cls = some c := by
  unfold parseClass
  rw [is]
  cases c <;> rfl

theorem parseClass_of_large {cls : Word} (large : 2 ≤ cls.toNat) : parseClass cls = none := by
  unfold parseClass
  split
  · omega
  · omega
  · rfl

theorem parseOptLease_none : parseOptLease 0xFFFF#16 = some none := rfl

theorem parseOptLease_of_toNat {w : Word} {l : LeaseId} (names : w.toNat = l.val) : parseOptLease w = some (some l) := by
  have other : w ≠ noneWord := fun e => by
    have value : w.toNat = 65535 := by rw [e]; rfl
    omega
  rw [parseOptLease, if_neg other, parseLease_of_toNat names]
  rfl

theorem parseOptLease_of_large {w : Word} (large : 64 ≤ w.toNat) (other : w ≠ 0xFFFF#16) : parseOptLease w = none := by
  have other' : w ≠ noneWord := other
  rw [parseOptLease, if_neg other', parseLease_of_large large]
  rfl

section
variable {h : HostId} {dest length cls tag fenceLease fenceGen carried : Word} {m : Message}

/-- The fields of a message are those its arguments give. -/
theorem parseBegin_of_args (args : BeginArgs h dest length cls tag fenceLease fenceGen carried m) :
    parseBegin h dest length cls tag fenceLease fenceGen carried = some m := by
  obtain ⟨host, other, size, limit, code, tags, unwritten, fences, carries⟩ := args
  have fenced : ∃ f, parseOptLease fenceLease = some f ∧ (f.map fun l => (l, fenceGen)) = m.fence := by
    rcases fences with ⟨rfl, fence⟩ | ⟨l, names, fence⟩
    · exact ⟨none, parseOptLease_none, fence.symm⟩
    · exact ⟨some l, parseOptLease_of_toNat names, fence.symm⟩
  obtain ⟨f, fenced, is⟩ := fenced
  have carriedParsed : parseOptLease carried = some m.carried := by
    rcases carries with ⟨rfl, lease⟩ | ⟨l, names, lease⟩
    · rw [lease, parseOptLease_none]
    · rw [lease, parseOptLease_of_toNat names]
  have within : ¬ (m.dest = h ∨ Config.maxLength < m.length) := not_or.mpr ⟨other, limit.not_gt⟩
  simp only [parseBegin, parseHost_of_toNat host, parseClass_of_code code, fenced, carriedParsed, if_neg within, is, size, ← tags,
    ← unwritten]

/-- One argument outside the table of R104 is enough to refuse all. -/
theorem parseBegin_of_bad (bad : 4 ≤ dest.toNat ∨ dest.toNat = h.val ∨ 240 < length.toNat ∨ 2 ≤ cls.toNat
      ∨ (64 ≤ fenceLease.toNat ∧ fenceLease ≠ 0xFFFF#16) ∨ (64 ≤ carried.toNat ∧ carried ≠ 0xFFFF#16)) :
    parseBegin h dest length cls tag fenceLease fenceGen carried = none := by
  unfold parseBegin
  split
  · next d c f x host cls' fence lease =>
    refine if_pos ?_
    have is := parseHost_some host
    rcases bad with large | own | long | large | ⟨large, other⟩ | ⟨large, other⟩
    · rw [parseHost_of_unknown large] at host
      cases host
    · exact .inl (Fin.ext (is.symm.trans own))
    · exact .inr long
    · rw [parseClass_of_large large] at cls'
      cases cls'
    · rw [parseOptLease_of_large large other] at fence
      cases fence
    · rw [parseOptLease_of_large large other] at lease
      cases lease
  · rfl

end

/-! ## BEGIN taken (R105) -/

section
variable {s t : State} {h : HostId} {dest length cls tag fenceLease fenceGen carried : Word} {m : Message} {id : Nat}

theorem exec_begin_of_taken
    (taken : s.takeStoreCommand h .beginMessage [dest, length, cls, tag, fenceLease, fenceGen, carried] = some (id, t)) :
    exec (.beginMessage h dest length cls tag fenceLease fenceGen carried) s =
      .next (beginTaken h id dest length cls tag fenceLease fenceGen carried t) := by
  simp [exec, execBegin, taken]

theorem beginTaken_of_assembling (busy : (t.stream h).assembling ≠ none) :
    beginTaken h id dest length cls tag fenceLease fenceGen carried t = t.reply h id .state [] :=
  if_pos (Option.isSome_iff_ne_none.mpr busy)

variable (idle : (t.stream h).assembling = none)
include idle

theorem beginTaken_of_bad (bad : parseBegin h dest length cls tag fenceLease fenceGen carried = none) :
    beginTaken h id dest length cls tag fenceLease fenceGen carried t = t.reply h id .badArg [] := by
  simp [beginTaken, idle, bad]

variable (args : BeginArgs h dest length cls tag fenceLease fenceGen carried m)
include args

theorem beginTaken_of_no_peer (out : t.store.joined.get m.dest = none) :
    beginTaken h id dest length cls tag fenceLease fenceGen carried t = t.reply h id .noPeer [dest] := by
  simp [beginTaken, idle, parseBegin_of_args args, out, word_of_toNat args.dest]

variable (peer : t.store.joined.get m.dest ≠ none)
include peer

theorem beginTaken_of_unreserved (unreserved : ∀ d k, t.space h ≠ .reserved d k) :
    beginTaken h id dest length cls tag fenceLease fenceGen carried t = beginByAdmission h id m t := by
  unfold beginTaken
  rw [if_neg (by simp [idle]), parseBegin_of_args args]
  dsimp only
  rw [if_neg (by simpa using peer)]
  cases space : t.space h with
  | empty => rfl
  | waiting n k => rfl
  | reserved d k => exact absurd space (unreserved d k)

theorem beginTaken_of_reserved {d : DescId} {k : Nat} (reserved : t.space h = .reserved d k) :
    beginTaken h id dest length cls tag fenceLease fenceGen carried t = beginInReservation h id m d t := by
  unfold beginTaken
  rw [if_neg (by simp [idle]), parseBegin_of_args args]
  dsimp only
  rw [if_neg (by simpa using peer), reserved]

end

/-- Settles O30: the first three checks. -/
theorem beginRefused : Obligations.BeginRefused := by
  intro s t h dest length cls tag fenceLease fenceGen carried id taken answer
  have runs := exec_begin_of_taken taken
  refine ⟨fun busy => ?_, fun idle => ⟨fun bad => ?_, fun m args out => ?_⟩⟩
  · exact runs.trans (congrArg Host.Outcome.next (beginTaken_of_assembling busy))
  · exact runs.trans (congrArg Host.Outcome.next (beginTaken_of_bad idle (parseBegin_of_bad bad)))
  · exact runs.trans (congrArg Host.Outcome.next (beginTaken_of_no_peer idle args out))

/-! ## By admission (R106) -/

section
variable {t : State} {h : HostId} {m : Message} (id : Nat) (sound : StoreSound t)
include sound

theorem beginByAdmission_of_over_quota (exceeds : quotaTest h (cellsNeeded m.length) t ≠ true) :
    beginByAdmission h id m t = replyQuota h id t := by
  rw [ne_eq, Bool.not_eq_true] at exceeds
  simp only [beginByAdmission, readForCount_of_storeSound sound, exceeds, Bool.not_false, if_true]

variable (quota : quotaTest h (cellsNeeded m.length) t = true)
include quota

theorem beginByAdmission_of_no_room (full : t.store.spaceList ≠ [] ∨ poolTest (cellsNeeded m.length) t ≠ true) :
    beginByAdmission h id m t = replyNoSpace h id t := by
  simp only [beginByAdmission, readForCount_of_storeSound sound, quota, Bool.not_true, Bool.false_eq_true, if_false]
  by_cases listed : t.store.spaceList ≠ []
  · rw [if_pos listed]
  · rw [if_neg listed, if_pos]
    simpa using full.resolve_left listed

theorem beginByAdmission_of_room {d : DescId} (nobody : t.store.spaceList = []) (pool : poolTest (cellsNeeded m.length) t = true)
    (lowest : lowestFree t = some d) : beginByAdmission h id m t = replyBegin h id (cellsNeeded m.length) 0 0 (cellsNeeded m.length)
      (takeCells d 0 (cellsNeeded m.length) (assemble h d ((t.store.joined.get h).getD 0) m t)) := by
  simp only [beginByAdmission, readForCount_of_storeSound sound, quota, Bool.not_true, Bool.false_eq_true, if_false]
  rw [if_neg (not_not.mpr nobody), if_neg (by simp [pool]), lowest]

end

/-- Settles O31: the three tests, then the lowest FREE descriptor. -/
theorem beginByAdmission_holds : Obligations.BeginByAdmission := by
  intro s t h dest length cls tag fenceLease fenceGen carried m id taken sound idle args peer unreserved n run quotaOk poolOk
  have runs : run = .next (beginByAdmission h id m t) := by
    rw [← beginTaken_of_unreserved idle args peer unreserved]
    exact exec_begin_of_taken taken
  have quota : quotaTest h (cellsNeeded m.length) t = true ↔ quotaOk := quotaTest_iff ..
  have pool : poolTest (cellsNeeded m.length) t = true ↔ poolOk := poolTest_iff ..
  rw [runs]
  refine ⟨fun exceeds => ?_, fun within full => ?_, fun within nobody room => ?_⟩
  · rw [beginByAdmission_of_over_quota id sound (mt quota.mp exceeds)]
    rfl
  · rw [beginByAdmission_of_no_room id sound (quota.mpr within) (full.imp_right (mt pool.mp))]
    rfl
  · obtain ⟨d, lowest⟩ := exists_lowestFree room.1
    refine ⟨d, lowest, fun k joined => ?_⟩
    rw [beginByAdmission_of_room id sound (quota.mpr within) nobody (pool.mpr room) lowest, takeCells_eq, joined]
    rfl

/-! ## In a reservation (R107) -/

section
variable {t : State} {h : HostId} {m : Message} {d : DescId} (id : Nat)

theorem beginInReservation_of_same (same : cellsNeeded m.length = (t.desc d).cellCount) : beginInReservation h id m d t =
    replyBegin h id (cellsNeeded m.length) 1 0 0 (useReservation h d m t) := if_pos same

variable (sound : StoreSound t)
include sound

theorem beginInReservation_of_fewer (fewer : cellsNeeded m.length < (t.desc d).cellCount) : beginInReservation h id m d t =
    replyBegin h id (cellsNeeded m.length) 1 (ownedCells d (cellsNeeded m.length) t) 0
      (spaceScan (useReservation h d m (t.withMap (mapFreed t d (cellsNeeded m.length))))).1 := by
  rw [beginInReservation, if_neg fewer.ne, if_pos fewer, readMap_sound sound.2]
  dsimp only
  rw [freeOwned_eq]

variable (more : (t.desc d).cellCount < cellsNeeded m.length) {k : Nat} (reserved : t.space h = .reserved d k)
include more reserved

theorem beginInReservation_of_more : beginInReservation h id m d t =
    if topUpRoom h (cellsNeeded m.length - (t.desc d).cellCount) t
    then replyBegin h id (cellsNeeded m.length) 1 0 (cellsNeeded m.length - (t.desc d).cellCount)
      (takeCells d (t.desc d).cellCount (cellsNeeded m.length - (t.desc d).cellCount) (useReservation h d m t))
    else replyNoSpace h id t := by
  rw [beginInReservation, if_neg more.ne', if_neg more.not_gt, readForCount_of_storeSound sound]
  simp only [reserved]

end

theorem topUpRoom_iff (h : HostId) (k : Nat) (s : State) :
    topUpRoom h k s = true ↔ cellUsage h s + k ≤ s.store.cellQuota ∧ k ≤ freeCells s := by
  simp [topUpRoom]

/-- Settles O32: the cells needed against the cells reserved. -/
theorem beginInReservation_holds : Obligations.BeginInReservation := by
  intro s t h dest length cls tag fenceLease fenceGen carried m id d k taken sound idle args peer reserved n r run room begun
  have runs : run = .next (beginInReservation h id m d t) := by
    rw [← beginTaken_of_reserved idle args peer reserved]
    exact exec_begin_of_taken taken
  have roomIff : topUpRoom h (cellsNeeded m.length - (t.desc d).cellCount) t = true ↔ room := topUpRoom_iff ..
  rw [runs]
  refine ⟨fun same => ?_, fun fewer => ?_, fun more fits => ?_, fun more full => ?_⟩
  · rw [beginInReservation_of_same id same]
    rfl
  · have began (map : Vector (Coded MapEntry) 128) : useReservation h d m (t.withMap map) = begun map := rfl
    rw [beginInReservation_of_fewer id sound fewer, began]
    exact congrArg (fun u => Host.Outcome.next (State.reply u h id .ok _)) rfl
  · rw [beginInReservation_of_more id sound more reserved, if_pos (roomIff.mpr fits), takeCells_eq]
    rfl
  · rw [beginInReservation_of_more id sound more reserved, if_neg (mt roomIff.mp full)]
    rfl

/-! ## The send window (R88) -/

/-- A reply's status can be read off the port it is sent to. -/
theorem reply_status {t u : State} {h : HostId} {id id' : Nat} {st st' : Status} {ws ws' : List Word}
    (same : t.reply h id st ws = u.reply h id' st' ws') : st.code = st'.code := by
  have last (s : State) (i : Nat) (x : Status) (xs : List Word) :
      ((s.reply h i x xs).port h).replies.getLast? = some ⟨i, x.code :: xs, false⟩ := by
    rw [State.reply, State.sendReply, State.setPort_port_same]
    exact List.getLast?_concat
  have replies := (last t id st ws).symm.trans ((congrArg (fun s : State => (s.port h).replies.getLast?) same).trans (last u id' st' ws'))
  exact (List.cons.inj (Reply.mk.inj (Option.some.inj replies)).2.1).1

/-- The step answered OK. -/
def AnsweredOk (h : HostId) (id : Nat) (x : Host.Outcome State Fault Refusal) : Prop :=
  ∃ (u : State) (ws : List Word), x = .next (u.reply h id .ok ws)

theorem answeredOk_of_ok {h : HostId} {id : Nat} {t : State} {ws : List Word} :
    AnsweredOk h id (.next (t.reply h id .ok ws)) := ⟨t, ws, rfl⟩

theorem not_answeredOk {h : HostId} {id : Nat} {t : State} {st : Status} {ws : List Word} (refused : st.code ≠ 0x00#16) :
    ¬ AnsweredOk h id (.next (t.reply h id st ws)) := fun ⟨_, _, same⟩ => refused (reply_status (Host.Outcome.next.inj same))

theorem not_answeredOk_quota {h : HostId} {id : Nat} {t : State} : ¬ AnsweredOk h id (.next (replyQuota h id t)) :=
  not_answeredOk (by decide)

theorem not_answeredOk_noSpace {h : HostId} {id : Nat} {t : State} : ¬ AnsweredOk h id (.next (replyNoSpace h id t)) :=
  not_answeredOk (by decide)

section
variable {t : State} {h : HostId} {m : Message} (id : Nat) (sound : StoreSound t)
include sound

/-- A BEGIN without a reservation is answered OK when it passes the quota test, finds nobody waiting, and fits the pool. -/
theorem answeredOk_beginByAdmission : AnsweredOk h id (.next (beginByAdmission h id m t)) ↔
    quotaTest h (cellsNeeded m.length) t = true ∧ t.store.spaceList = [] ∧ poolTest (cellsNeeded m.length) t = true := by
  by_cases quota : quotaTest h (cellsNeeded m.length) t = true
  · by_cases room : t.store.spaceList = [] ∧ poolTest (cellsNeeded m.length) t = true
    · obtain ⟨d, lowest⟩ := exists_lowestFree ((poolTest_iff ..).mp room.2).1
      rw [beginByAdmission_of_room id sound quota room.1 room.2 lowest]
      exact iff_of_true answeredOk_of_ok ⟨quota, room⟩
    · rw [beginByAdmission_of_no_room id sound quota (not_and_or.mp room)]
      exact iff_of_false not_answeredOk_noSpace fun all => room all.2
  · rw [beginByAdmission_of_over_quota id sound quota]
    exact iff_of_false not_answeredOk_quota fun all => quota all.1

/-- A BEGIN in a reservation is answered OK unless its shortfall has no room. -/
theorem answeredOk_beginInReservation {d : DescId} {k : Nat} (reserved : t.space h = .reserved d k) :
    AnsweredOk h id (.next (beginInReservation h id m d t)) ↔ (t.desc d).cellCount < cellsNeeded m.length →
      topUpRoom h (cellsNeeded m.length - (t.desc d).cellCount) t = true := by
  rcases Nat.lt_trichotomy (cellsNeeded m.length) (t.desc d).cellCount with fewer | same | more
  · rw [beginInReservation_of_fewer id sound fewer]
    exact iff_of_true answeredOk_of_ok fun more => absurd more fewer.not_gt
  · rw [beginInReservation_of_same id same]
    exact iff_of_true answeredOk_of_ok fun more => absurd same more.ne'
  · rw [beginInReservation_of_more id sound more reserved]
    by_cases room : topUpRoom h (cellsNeeded m.length - (t.desc d).cellCount) t = true
    · rw [if_pos room]
      exact iff_of_true answeredOk_of_ok fun _ => room
    · rw [if_neg room]
      exact iff_of_false not_answeredOk_noSpace fun all => room (all more)

end

theorem sendWindow_of_reserved {t : State} {h : HostId} {d : DescId} {k : Nat} (joined : t.store.joined.get h ≠ none)
    (reserved : t.space h = .reserved d k) : sendWindow h t = min 15 ((t.desc d).cellCount + cellRoom h t) := by
  rw [sendWindow, if_neg (by simpa using joined), reserved]
  rfl

theorem sendWindow_of_unreserved {t : State} {h : HostId} (joined : t.store.joined.get h ≠ none)
    (unreserved : ∀ d k, t.space h ≠ .reserved d k) : sendWindow h t =
      if t.store.spaceList ≠ [] then 0
      else if freeDescs t = 0 ∨ t.store.descQuota ≤ descUsage h t then 0 else min 15 (cellRoom h t) := by
  rw [sendWindow, if_neg (by simpa using joined)]
  cases space : t.space h with
  | empty => rfl
  | waiting n k => rfl
  | reserved d k => exact absurd space (unreserved d k)

/-- Settles O60: the tests of BEGIN against the terms of the window. -/
theorem sendWindowIsBeginRoom : Obligations.SendWindowIsBeginRoom := by
  intro s t h dest length cls tag fenceLease fenceGen carried m id taken sound idle joined args peer some_cell
  have limit := args.limit
  have needs : cellsNeeded m.length = (m.length + 15) / 16 := rfl
  rw [exec_begin_of_taken taken]
  show AnsweredOk h id _ ↔ _
  by_cases reserved : ∃ d k, t.space h = .reserved d k
  · obtain ⟨d, k, reserved⟩ := reserved
    rw [beginTaken_of_reserved idle args peer reserved, answeredOk_beginInReservation id sound reserved,
      sendWindow_of_reserved joined reserved, topUpRoom_iff, cellRoom, needs]
    omega
  · have unreserved : ∀ d k, t.space h ≠ .reserved d k := fun d k e => reserved ⟨d, k, e⟩
    rw [beginTaken_of_unreserved idle args peer unreserved, answeredOk_beginByAdmission id sound,
      sendWindow_of_unreserved joined unreserved, quotaTest_iff, poolTest_iff, cellRoom, needs]
    by_cases listed : t.store.spaceList = []
    · rw [if_neg (not_not.mpr listed)]
      simp only [listed, true_and]
      split
      · omega
      · omega
    · rw [if_pos listed]
      refine iff_of_false (fun all => listed all.2.1) ?_
      omega

end Sys2Proof.Machine
end

section
/-! PROOF. The payload: what a PAY word written does to the assembling message (O33), and what a PAY read takes from the
open one (O34). -/

namespace Sys2Proof.Machine

open Sys2Proof

/-! ## The read of the map before a PAY word (R155, log 13) -/

section
variable {s : State} {h : HostId} {d : DescId}

theorem readMap_map_sound (s : State) (c : CellId) : ((readMap s).store.map.get c).chk = .sound := by
  rw [readMap_eq]
  exact congrArg Coded.chk (vector_get_ofFn ..)

/-- A second read of the map finds nothing more. -/
theorem readMap_readMap (s : State) : readMap (readMap s) = readMap s := readMap_sound (readMap_map_sound s)

theorem readMap_setStorePath (s : State) (p : List StoreItem) : readMap (s.setStorePath p) = (readMap s).setStorePath p := by
  rw [readMap_eq, readMap_eq]
  rfl

theorem State.withScan_frame (s : State) (map : Vector (Coded MapEntry) 128) (offers : PerHost (List Offer)) (mended lost : Nat) :
    let t := s.withScan map offers mended lost
    t.ports = s.ports ∧ t.presence = s.presence ∧ t.store.path = s.store.path ∧ t.store.streams = s.store.streams
      ∧ t.store.descs = s.store.descs := ⟨rfl, rfl, rfl, rfl, rfl⟩

theorem readMap_frame (s : State) : (readMap s).ports = s.ports ∧ (readMap s).presence = s.presence
    ∧ (readMap s).store.path = s.store.path ∧ (readMap s).store.streams = s.store.streams
    ∧ (readMap s).store.descs = s.store.descs := by
  rw [readMap_eq]
  exact State.withScan_frame ..

theorem readMap_stream (s : State) (h : HostId) : (readMap s).stream h = s.stream h :=
  congrArg (Vector.get · h) (readMap_frame s).2.2.2.1

theorem readMap_desc (s : State) (d : DescId) : (readMap s).desc d = s.desc d :=
  congrArg (fun v => (Vector.get v d).val) (readMap_frame s).2.2.2.2

/-! ## The cell of a position (R84) -/

theorem lookupCell_of_owned {p : Nat} {c : CellId} (ok : StoreOk s) (owned : s.mapEntry c = .owned d p) :
    lookupCell d p s = some c := by
  obtain ⟨⟨-, one⟩, -⟩ := ok
  obtain ⟨c', found⟩ := Option.isSome_iff_exists.mp
    (List.find?_isSome (p := fun c => decide (s.mapEntry c = .owned d p)).mpr ⟨c, List.mem_finRange c, decide_eq_true owned⟩)
  have owned' : s.mapEntry c' = .owned d p := of_decide_eq_true (List.find?_some (p := fun c => decide (s.mapEntry c = .owned d p)) found)
  rw [one c c' d p owned owned']
  exact found

theorem lookupCell_of_lost {p : Nat} (lost : ∀ c, s.mapEntry c ≠ .owned d p) : lookupCell d p s = none :=
  List.find?_eq_none.mpr fun c _ => by simpa using lost c

/-! ## A PAY word taken by the store (R110, R111) -/

theorem takePay_of_word {w : Word} {rest : List StoreItem} (word : takePayWord h s.store.path = some (w, rest)) :
    takePay h s = storePayWord h w (s.setStorePath rest) := by
  simp only [takePay, word]

theorem storePayWord_of_idle (w : Word) (idle : (s.stream h).assembling = none) : storePayWord h w s = s.setOverrun h := by
  simp only [storePayWord, idle]

section
variable {m : Message} (w : Word) (assembling : (s.stream h).assembling = some d) (msg : (s.desc d).msg = some m)
include assembling msg

theorem storePayWord_of_full (full : m.length ≤ m.written) : storePayWord h w s = s.setOverrun h := by
  simp only [storePayWord, assembling, msg, if_pos full]

theorem storePayWord_of_room (room : m.written < m.length) : storePayWord h w s =
    advanceWritten d (min 2 (m.length - m.written))
      (appendBytes d m.written ((wordBytes w).take (min 2 (m.length - m.written))) s) := by
  simp only [storePayWord, assembling, msg, if_neg room.not_ge]

/-- A word with room is handled after the read of the map, whatever that finds. -/
theorem storePayWord_readMap (room : m.written < m.length) : storePayWord h w s = storePayWord h w (readMap s) := by
  rw [storePayWord_of_room w assembling msg room, storePayWord_of_room (s := readMap s) w
    (by rw [readMap_stream, assembling]) (by rw [readMap_desc, msg]) room]
  unfold appendBytes
  rw [readMap_readMap]

end

/-! ## The word in its cell (R110, R155, R164) -/

theorem advanceWritten_of_msg {m : Message} (n : Nat) (msg : (s.desc d).msg = some m) : advanceWritten d n s =
    s.putDesc d { s.desc d with msg := some { m with written := m.written + n } } := by
  simp only [advanceWritten, msg]

section
variable (mapSound : ∀ c, (s.store.map.get c).chk = .sound) (k : Nat) (bytes : List Byte)
include mapSound

theorem appendBytes_of_lost (lost : ∀ c, s.mapEntry c ≠ .owned d (k / 16)) : appendBytes d k bytes s = markDamaged d s := by
  have found : lookupCell d (k / Config.cellBytes) s = none := lookupCell_of_lost lost
  unfold appendBytes
  rw [readMap_sound mapSound]
  dsimp only
  rw [found]

variable {c : CellId} (ok : StoreOk s) (owned : s.mapEntry c = .owned d (k / 16))
include ok owned

theorem appendBytes_of_first (first : k % 16 = 0) : appendBytes d k bytes s =
    writeCell c 0 (bytes ++ List.replicate (16 - bytes.length) 0#8) s := by
  have found : lookupCell d (k / Config.cellBytes) s = some c := lookupCell_of_owned ok owned
  have at_start : k % Config.cellBytes = 0 := first
  unfold appendBytes
  rw [readMap_sound mapSound]
  dsimp only
  rw [found]
  exact if_pos at_start

theorem appendBytes_of_later (later : k % 16 ≠ 0) : appendBytes d k bytes s =
    writeCell c (k % 16) bytes (readCell d c s) := by
  have found : lookupCell d (k / Config.cellBytes) s = some c := lookupCell_of_owned ok owned
  have inside : k % Config.cellBytes ≠ 0 := later
  unfold appendBytes
  rw [readMap_sound mapSound]
  dsimp only
  rw [found]
  exact if_neg inside

end

/-- The state with the fields replaced that a PAY word's write changes. -/
def State.cellUpdated (s : State) (descs : Vector (Coded Descriptor) 48) (payload : List Host.Cell) (cellChk : Vector Check 128)
    (offers : PerHost (List Offer)) (mended lost : Nat) : State :=
  { s with
    store := { s.store with descs := descs, payload := payload, cellChk := cellChk }
    notice := { s.notice with offers := offers }
    settings := { s.settings with correctedDue := mended, uncorrectedDue := lost } }

/-- A PAY word's bytes p put into cell c of descriptor d, whose record becomes x: with an error in the cell corrected, or
found uncorrectable. -/
def State.cellWritten (s : State) (d : DescId) (x : Descriptor) (c : CellId) (p : List Host.Cell) (corrected bad : Bool) : State :=
  s.cellUpdated (upd s.store.descs d ⟨x, .sound⟩) p (upd s.store.cellChk c .sound)
    (Vector.ofFn fun g => s.notice.offers.get g
      ++ if bad = true ∧ (s.store.joined.get g).isSome = true then [⟨.fault .cell c.val, s.store.joined.get g⟩] else [])
    (s.settings.correctedDue + if corrected = true then 1 else 0) (s.settings.uncorrectedDue + if bad = true then 1 else 0)

section
variable {m : Message} (n : Nat) (c : CellId) (o : Nat) (bytes : List Byte)

/-- The message after n more bytes, damaged or not. -/
def Descriptor.advanced (x : Descriptor) (m : Message) (n : Nat) (bad : Bool) : Descriptor :=
  { x with msg := some { m with written := m.written + n }, damaged := x.damaged || bad }

/-- The payload after bytes put into a cell. -/
def State.cellBytesPut (s : State) (c : CellId) (o : Nat) (bytes : List Byte) : List Host.Cell :=
  Memory.writeBytes s.store.payload (16 * c.val + o) (bytes.take (16 - o))

/-- Bytes written to a cell, as one update. -/
theorem advance_writeCell (msg : (s.desc d).msg = some m) : advanceWritten d n (writeCell c o bytes s) =
    s.cellUpdated (upd s.store.descs d ⟨(s.desc d).advanced m n false, .sound⟩) (s.cellBytesPut c o bytes)
      (upd s.store.cellChk c .sound) s.notice.offers s.settings.correctedDue s.settings.uncorrectedDue := by
  have msg' : ((writeCell c o bytes s).desc d).msg = some m := msg
  rw [advanceWritten_of_msg n msg', Descriptor.advanced, Bool.or_false]
  rfl

/-- Bytes written to a cell that was not read first, or in which the read found nothing. -/
theorem advance_writeCell_quiet (msg : (s.desc d).msg = some m) : advanceWritten d n (writeCell c o bytes s) =
    s.cellWritten d ((s.desc d).advanced m n false) c (s.cellBytesPut c o bytes) false false := by
  rw [advance_writeCell n c o bytes msg]
  simp only [State.cellWritten, Bool.false_eq_true, false_and, if_false, List.append_nil, Nat.add_zero, vector_ofFn_get]

/-- Bytes written to a cell that was read first: the error in it corrected, or the message marked damaged. -/
theorem advance_writeCell_readCell (msg : (s.desc d).msg = some m) : advanceWritten d n (writeCell c o bytes (readCell d c s)) =
    s.cellWritten d ((s.desc d).advanced m n (decide (s.store.cellChk.get c = .uncorrectable))) c (s.cellBytesPut c o bytes)
      (decide (s.store.cellChk.get c = .correctable)) (decide (s.store.cellChk.get c = .uncorrectable)) := by
  unfold readCell
  cases s.store.cellChk.get c with
  | sound => exact advance_writeCell_quiet n c o bytes msg
  | correctable =>
    have msg' : (((s.setCellChk c .sound).raiseCorrected).desc d).msg = some m := msg
    have once : upd (upd s.store.cellChk c .sound) c .sound = upd s.store.cellChk c .sound := upd_upd ..
    dsimp only
    rw [advance_writeCell n c o bytes msg']
    simp only [State.cellWritten, reduceCtorEq, decide_false, decide_true, Bool.false_eq_true, false_and, if_false, if_true,
      List.append_nil, Nat.add_zero, vector_ofFn_get]
    rw [← once]
    rfl
  | uncorrectable =>
    have msg' : ((withFault .cell c.val (markDamaged d s)).desc d).msg = some m := (markDamaged_desc_msg d s).trans msg
    have once (x : Coded Descriptor) : upd (markDamaged d s).store.descs d x = upd s.store.descs d x := upd_upd ..
    have marked : (markDamaged d s).desc d = { s.desc d with damaged := true } := State.putDesc_desc_same ..
    dsimp only
    rw [State.storeFinding_eq, advance_writeCell n c o bytes msg', withFault_store, once,
      show (withFault .cell c.val (markDamaged d s)).desc d = _ from marked]
    simp only [State.cellWritten, reduceCtorEq, decide_false, decide_true, Bool.false_eq_true, true_and, if_false, if_true,
      Nat.add_zero]
    have advanced : ({ s.desc d with damaged := true } : Descriptor).advanced m n false = (s.desc d).advanced m n true := by
      simp only [Descriptor.advanced, Bool.or_false, Bool.or_true]
    rw [advanced]
    rfl

end

/-! ## The bytes in memory (R84, R110) -/

section
variable {mem : List Host.Cell} (wf : Memory.wf mem = true) (w : Word) (two : Bool) (c o : Nat)

/-- The bytes of a word that are taken: both, or the earlier one alone. -/
def takenBytes (w : Word) (two : Bool) : List Byte := if two then [w.extractLsb' 0 8, w.extractLsb' 8 8] else [w.extractLsb' 0 8]

theorem wordBytes_take {k len : Nat} (room : k < len) :
    (wordBytes w).take (min 2 (len - k)) = takenBytes w (decide (k + 2 ≤ len)) := by
  by_cases both : k + 2 ≤ len
  · rw [show min 2 (len - k) = 2 by omega, takenBytes, decide_eq_true both]
    rfl
  · rw [show min 2 (len - k) = 1 by omega, takenBytes, decide_eq_false both]
    rfl

theorem takenBytes_length : (takenBytes w two).length = if two then 2 else 1 := by
  cases two <;> rfl

include wf

/-- A later word of a cell: its bytes are read back, and nothing else changes. -/
theorem read_laterWord (even : o % 2 = 0) (inside : o < 16) : let p := Memory.writeBytes mem (16 * c + o) ((takenBytes w two).take (16 - o))
    Memory.wf p = true ∧ Memory.read p (16 * c + o) = w.extractLsb' 0 8
      ∧ (two = true → Memory.read p (16 * c + o + 1) = w.extractLsb' 8 8)
      ∧ ∀ a, a ≠ 16 * c + o → ¬ (two = true ∧ a = 16 * c + o + 1) → Memory.read p a = Memory.read mem a := by
  have length := takenBytes_length w two
  have all : (takenBytes w two).take (16 - o) = takenBytes w two := by
    refine List.take_of_length_le ?_
    split at length <;> omega
  dsimp only
  rw [all]
  refine ⟨Memory.writeBytes_wf _ _ wf, ?_, fun both => ?_, fun a low high => ?_⟩
  · have here := Memory.read_writeBytes_inside (a := 16 * c + o) (takenBytes w two) wf 0 (by split at length <;> omega)
    rw [Nat.add_zero] at here
    rw [here]
    cases two <;> rfl
  · subst both
    exact Memory.read_writeBytes_inside (a := 16 * c + o) (takenBytes w true) wf 1 (by
      rw [takenBytes_length]
      decide)
  · refine Memory.read_writeBytes_outside _ wf ?_
    cases two
    · simp only [takenBytes_length, Bool.false_eq_true, if_false]
      omega
    · simp only [takenBytes_length, if_true]
      simp only [true_and] at high
      omega

/-- The first word of a cell: the rest of the cell is cleared. -/
theorem read_firstWord : let ys := takenBytes w two ++ List.replicate (16 - (takenBytes w two).length) 0#8
    let p := Memory.writeBytes mem (16 * c + 0) (ys.take (16 - 0))
    Memory.wf p = true ∧ Memory.read p (16 * c) = w.extractLsb' 0 8
      ∧ (two = true → Memory.read p (16 * c + 1) = w.extractLsb' 8 8)
      ∧ (∀ o < 16, (two = true → 2 ≤ o) → 1 ≤ o → Memory.read p (16 * c + o) = 0#8)
      ∧ ∀ a, a < 16 * c ∨ 16 * c + 16 ≤ a → Memory.read p a = Memory.read mem a := by
  have length : (takenBytes w two ++ List.replicate (16 - (takenBytes w two).length) 0#8).length = 16 := by
    cases two <;> rfl
  intro ys p
  have all : ys.take (16 - 0) = ys := List.take_of_length_le length.le
  have here (i : Nat) (lt : i < 16) : Memory.read p (16 * c + i) = ys[i] := by
    show Memory.read (Memory.writeBytes mem (16 * c + 0) (ys.take (16 - 0))) (16 * c + i) = _
    rw [all]
    exact Memory.read_writeBytes_inside (a := 16 * c + 0) ys wf i (length ▸ lt)
  refine ⟨Memory.writeBytes_wf _ _ wf, ?_, fun both => ?_, fun o lt past later => ?_, fun a out => ?_⟩
  · exact (here 0 (by omega)).trans (by cases two <;> rfl)
  · subst both
    exact here 1 (by omega)
  · rw [here o lt, List.getElem_append_right, List.getElem_replicate]
    rw [takenBytes_length]
    split
    · next both => exact past both
    · exact later
  · refine Memory.read_writeBytes_outside _ wf ?_
    rw [all, length]
    omega

end

/-- A word for a position without a cell marks the message damaged (R162). -/
theorem advance_markDamaged {m : Message} (n : Nat) (msg : (s.desc d).msg = some m) : advanceWritten d n (markDamaged d s) =
    s.putDesc d { s.desc d with msg := some { m with written := m.written + n }, damaged := true } := by
  have msg' : ((markDamaged d s).desc d).msg = some m := (markDamaged_desc_msg d s).trans msg
  have marked : (markDamaged d s).desc d = { s.desc d with damaged := true } := State.putDesc_desc_same ..
  have once (x : Descriptor) : (markDamaged d s).putDesc d x = s.putDesc d x := by
    show { s with store := { s.store with descs := upd (upd s.store.descs d _) d _ } } = _
    rw [upd_upd]
    rfl
  rw [advanceWritten_of_msg n msg', marked, once]

end

/-- The written count after a word. -/
theorem written_after {k len : Nat} (room : k < len) : k + min 2 (len - k) = if k + 1 = len then k + 1 else k + 2 := by
  split <;> omega

/-- Settles O33: the access by what waits at the port; the word taken by the assembling message, then by the cell of its
position and the place in it. -/
theorem payWordWritten : Obligations.PayWordWritten := by
  refine ⟨fun s h w reached online => ⟨fun clear => ?_, fun waits => ?_⟩, ?_⟩
  · refine congrArg Host.Outcome.next ((windowWrite_of_reached online reached).trans ?_)
    exact if_neg (by simp [clear])
  · refine congrArg Host.Outcome.next ((windowWrite_of_reached online reached).trans ?_)
    exact if_pos (Option.isSome_iff_ne_none.mpr waits)
  intro s h w rest word t overrun
  have runs : exec (.payWrite h .taken) s = .next (storePayWord h w t) := congrArg Host.Outcome.next (takePay_of_word word)
  refine ⟨fun idle => ?_, fun d m assembling msg => ⟨fun full => ?_, fun room => ⟨?_, fun mapSound ok wf => ?_⟩⟩⟩
  · exact runs.trans (congrArg Host.Outcome.next (storePayWord_of_idle (s := t) w idle))
  · exact runs.trans (congrArg Host.Outcome.next (storePayWord_of_full (s := t) w assembling msg full))
  · have word' : takePayWord h (readMap s).store.path = some (w, rest) := by
      obtain ⟨-, -, path, -⟩ := readMap_frame s
      rw [path, word]
    refine runs.trans (congrArg Host.Outcome.next ?_)
    rw [takePay_of_word word', ← readMap_setStorePath]
    exact storePayWord_readMap (s := t) w assembling msg room
  intro k two x
  rw [runs, storePayWord_of_room (s := t) w assembling msg room, wordBytes_take w room]
  refine ⟨fun lost => ?_, fun c owned => ?_⟩
  · rw [appendBytes_of_lost (s := t) mapSound m.written _ lost, advance_markDamaged (s := t) _ msg, written_after room]
    rfl
  intro corrected bad
  by_cases first : k % 16 = 0
  · have isCorrected : corrected = false := by simp [corrected, first]
    have isBad : bad = false := by simp [bad, first]
    obtain ⟨canonical, early, late, rest', others⟩ := read_firstWord wf.1 w (decide (k + 2 ≤ m.length)) c.val
    refine ⟨_, ?_, canonical, ?_, fun both => ?_, fun _ o lt past later => ?_, fun a out => ?_⟩
    · rw [isCorrected, isBad, appendBytes_of_first (s := t) mapSound m.written _ ok owned first,
        advance_writeCell_quiet (s := t) _ c 0 _ msg, Descriptor.advanced, written_after room]
      rfl
    · rw [first]
      exact early
    · rw [first]
      exact late (decide_eq_true both)
    · exact rest' o lt (fun both => past (of_decide_eq_true both)) later
    · refine others a ?_
      rcases out with low | high | ⟨later, -⟩
      · exact .inl low
      · exact .inr high
      · exact absurd first later
  · have isCorrected : corrected = decide (t.store.cellChk.get c = .correctable) := by simp [corrected, first, t]
    have isBad : bad = decide (t.store.cellChk.get c = .uncorrectable) := by simp [bad, first, t]
    have even : k % 16 % 2 = 0 := by
      obtain ⟨-, -, positions, -⟩ := ok
      obtain ⟨-, -, -, written⟩ := positions d m msg
      have : k % 2 = 0 := written.resolve_right room.ne
      omega
    obtain ⟨canonical, early, late, others⟩ :=
      read_laterWord wf.1 w (decide (k + 2 ≤ m.length)) c.val (k % 16) even (Nat.mod_lt _ (by omega))
    refine ⟨_, ?_, canonical, early, fun both => late (decide_eq_true both), fun start => absurd start first, fun a out => ?_⟩
    · rw [isCorrected, isBad, appendBytes_of_later (s := t) mapSound m.written _ ok owned first,
        advance_writeCell_readCell (s := t) _ c _ _ msg, Descriptor.advanced, written_after room]
      rfl
    · have inside : k % 16 < 16 := Nat.mod_lt _ (by omega)
      rcases out with low | high | ⟨-, ne, other⟩
      · exact others a (by omega) (by omega)
      · refine others a (by omega) fun both => ?_
        omega
      · exact others a ne fun both => other ⟨of_decide_eq_true both.1, both.2⟩

end Sys2Proof.Machine
end

section
/-! PROOF. A PAY read: the next bytes of the open message (O34). -/

namespace Sys2Proof.Machine

open Sys2Proof

/-! ## The store's answer to a PAY read (R121) -/

section
variable {s : State} {h : HostId} {d : DescId} {m : Message}

theorem storePayRead_of_closed (closed : (s.stream h).openDesc = none) : storePayRead h s = (0#16, s.setOverrun h) := by
  unfold storePayRead
  rw [closed]

section
variable (opened : (s.stream h).openDesc = some d) (msg : (s.desc d).msg = some m)
include opened msg

theorem storePayRead_of_done (done : m.length ≤ (s.stream h).readPos) : storePayRead h s = (0#16, s.setOverrun h) := by
  unfold storePayRead
  rw [opened]
  dsimp only
  rw [msg]
  exact if_pos done

theorem storePayRead_of_left (left : (s.stream h).readPos < m.length) {n : Nat} (count : n = min 2 (m.length - (s.stream h).readPos)) :
    storePayRead h s = ((fetchBytes d (s.stream h).readPos n s).1, (fetchBytes d (s.stream h).readPos n s).2.setStream h
      { s.stream h with readPos := (s.stream h).readPos + n }) := by
  have stream : (fetchBytes d (s.stream h).readPos n s).2.stream h = s.stream h :=
    congrArg (Vector.get · h) (fetchBytes_messages d (s.stream h).readPos n s).streams
  unfold storePayRead
  rw [opened]
  dsimp only
  rw [msg]
  dsimp only
  rw [if_neg left.not_ge, ← count, stream]

/-- A read with bytes left is answered after the read of the map, whatever that finds. -/
theorem storePayRead_readMap (left : (s.stream h).readPos < m.length) : storePayRead h s = storePayRead h (readMap s) := by
  have opened' : ((readMap s).stream h).openDesc = some d := by rw [readMap_stream, opened]
  have msg' : ((readMap s).desc d).msg = some m := by rw [readMap_desc, msg]
  have left' : ((readMap s).stream h).readPos < m.length := by rwa [readMap_stream]
  rw [storePayRead_of_left opened msg left rfl, storePayRead_of_left opened' msg' left' rfl, readMap_stream]
  unfold fetchBytes
  rw [readMap_readMap]

end

/-! ## The bytes of a position (R155, R162, R164) -/

theorem readCell_payload (d : DescId) (c : CellId) (s : State) : (readCell d c s).store.payload = s.store.payload := by
  unfold readCell
  split
  · rfl
  · rfl
  · rw [State.storeFinding_eq]
    rfl

section
variable (mapSound : ∀ c, (s.store.map.get c).chk = .sound) (k n : Nat)
include mapSound

theorem fetchBytes_of_lost (lost : ∀ c, s.mapEntry c ≠ .owned d (k / 16)) : fetchBytes d k n s = (0#16, markDamaged d s) := by
  have found : lookupCell d (k / Config.cellBytes) s = none := lookupCell_of_lost lost
  unfold fetchBytes
  rw [readMap_sound mapSound]
  dsimp only
  rw [found]

theorem fetchBytes_of_owned {c : CellId} (ok : StoreOk s) (owned : s.mapEntry c = .owned d (k / 16)) : fetchBytes d k n s =
    (packBytes (Memory.read s.store.payload (16 * c.val + k % 16))
      (if n = 2 then Memory.read s.store.payload (16 * c.val + k % 16 + 1) else 0#8), readCell d c s) := by
  have found : lookupCell d (k / Config.cellBytes) s = some c := lookupCell_of_owned ok owned
  unfold fetchBytes
  rw [readMap_sound mapSound]
  dsimp only
  rw [found]
  dsimp only
  rw [readCell_payload]
  rfl

end

theorem packBytes_low (early late : Byte) : (packBytes early late).extractLsb' 0 8 = early := by
  ext i lt
  rw [BitVec.getElem_extractLsb']
  show (late ++ early : BitVec (8 + 8)).getLsbD (0 + i) = early[i]
  rw [BitVec.getLsbD_append]
  simp [lt]

theorem packBytes_high (early late : Byte) : (packBytes early late).extractLsb' 8 8 = late := by
  ext i lt
  rw [BitVec.getElem_extractLsb']
  show (late ++ early : BitVec (8 + 8)).getLsbD (8 + i) = late[i]
  rw [BitVec.getLsbD_append]
  simp [BitVec.getLsbD_eq_getElem lt]

end

/-! ## A PAY read at the port (R174) -/

theorem reaches_congr {s t : State} {h : HostId} (same : t.port h = s.port h) (read : Bool) (loc : Loc) :
    t.reaches h read loc = s.reaches h read loc := by
  unfold State.reaches
  rw [same]

theorem payReadWaits_congr {s t : State} {h : HostId} (port : t.port h = s.port h) (path : t.store.path = s.store.path) :
    payReadWaits h t = payReadWaits h s := by
  unfold payReadWaits
  rw [port, path]

section
variable {s : State} {h : HostId} (reached : s.reaches h true .pay = true) (online : (s.record h).state ≠ .offline)
include reached online

theorem exec_payRead_of_reached : exec (.payRead h) s = .next (readPayWord h s) :=
  congrArg Host.Outcome.next (windowRead_of_reached online reached)

variable (free : (s.port h).busy = false)
include free

theorem exec_payRead_of_waits (waits : payReadWaits h s = true) : exec (.payRead h) s = .next s := by
  rw [exec_payRead_of_reached reached online, readPayWord, if_neg (by simp [free]), if_pos waits]

variable (next : payReadWaits h s = false)
include next

theorem exec_payRead_of_next : exec (.payRead h) s = .next ((storePayRead h s).2.returnWord h (storePayRead h s).1) := by
  rw [exec_payRead_of_reached reached online, readPayWord, if_neg (by simp [free]), if_neg (by simp [next])]

/-- The read goes on alike in a state with the same port, presence record and path. -/
theorem exec_payRead_congr {t : State} (port : t.port h = s.port h) (record : t.record h = s.record h)
    (path : t.store.path = s.store.path) :
    exec (.payRead h) t = .next ((storePayRead h t).2.returnWord h (storePayRead h t).1) :=
  exec_payRead_of_next ((reaches_congr port ..).trans reached) (by rwa [record]) (by rwa [port])
    ((payReadWaits_congr port path).trans next)

end

/-- Settles O34: the read by the port and the path, then by the open message, then by the cell of its position. -/
theorem payWordRead : Obligations.PayWordRead := by
  intro s h reached online overrun
  refine ⟨fun busy => ?_, exec_payRead_of_waits reached online, fun free next => ?_⟩
  · exact (exec_payRead_of_reached reached online).trans (congrArg Host.Outcome.next (if_pos busy))
  have runs := exec_payRead_of_next reached online free next
  have overrun_of (is : storePayRead h s = (0#16, s.setOverrun h)) : overrun := by
    refine runs.trans ?_
    rw [is]
    rfl
  refine ⟨fun closed => overrun_of (storePayRead_of_closed closed), fun d m opened msg => ⟨fun done =>
    overrun_of (storePayRead_of_done opened msg done), fun left => ⟨?_, fun mapSound ok => ?_⟩⟩⟩
  · obtain ⟨ports, presence, path, -⟩ := readMap_frame s
    rw [exec_payRead_congr reached online free next (congrArg (Vector.get · h) ports) (State.record_congr presence h) path,
      ← storePayRead_readMap opened msg left, runs]
  intro r
  have count := written_after left
  refine ⟨fun lost => ?_, fun c owned => ?_⟩
  · rw [runs, storePayRead_of_left opened msg left rfl, fetchBytes_of_lost mapSound _ _ lost, count]
    rfl
  · intro u
    have read : readCell d c s = u := by
      unfold readCell
      cases chk : s.store.cellChk.get c with
      | sound => simp only [u, chk]
      | correctable =>
        simp only [u, chk]
        rfl
      | uncorrectable =>
        simp only [u, chk]
        exact State.storeFinding_eq ..
    have fetched := fetchBytes_of_owned mapSound (s.stream h).readPos (min 2 (m.length - (s.stream h).readPos)) ok owned
    refine ⟨_, ?_, packBytes_low (Memory.read s.store.payload (16 * c.val + (s.stream h).readPos % 16))
      (if min 2 (m.length - (s.stream h).readPos) = 2
        then Memory.read s.store.payload (16 * c.val + (s.stream h).readPos % 16 + 1) else 0#8), ?_⟩
    · rw [runs, storePayRead_of_left opened msg left rfl, fetched, count, read]
    · rw [packBytes_high]
      by_cases last : (s.stream h).readPos + 1 = m.length
      · rw [if_pos last, if_neg (by omega)]
      · rw [if_neg last, if_pos (by omega)]

end Sys2Proof.Machine
end

section
/-! PROOF. COMMIT: the reads that it shares with OPEN, its checks in order and its losses (O35), and the message placed
(O36). -/

namespace Sys2Proof.Machine

open Sys2Proof

/-! ## The reads of a message's leases (R113, R120) -/

section
variable {t : State} {l : LeaseId}

/-- The state after the handling of an entry found uncorrectable. -/
def State.rebuiltAt (t : State) (l : LeaseId) : State := (rebuildEntry l t).dirFinding l

theorem readEntry_of_uncorrectable (flawed : (t.dir.entries.get l).chk = .uncorrectable) :
    readEntry l t = (true, t.rebuiltAt l) := by
  simp only [readEntry, flawed]
  rfl

theorem rebuiltAt_sound {l' : LeaseId} (other : l' ≠ l → EntrySound t l') : EntrySound (t.rebuiltAt l) l' := by
  unfold EntrySound State.rebuiltAt
  rw [rebuilt_finding_eq]
  show ((upd t.dir.entries l ⟨LeaseEntry.rebuilt, .sound⟩).get l').chk = .sound
  rcases eq_or_ne l l' with rfl | ne
  · rw [upd_get_same]
  · rw [upd_get_ne _ _ ne]
    exact other ne.symm

theorem readOptEntry_of_sound {o : Option LeaseId} (sound : ∀ l, o = some l → EntrySound t l) :
    readOptEntry o t = (false, t) := by
  cases o with
  | none => rfl
  | some l => exact readEntry_sound (sound l rfl)

/-- One of two leases reads uncorrectable, and the other one sound, before the rebuild and after it. -/
theorem readOptEntries_of_uncorrectable {o o' : Option LeaseId} (named : o = some l ∨ o' = some l)
    (flawed : (t.dir.entries.get l).chk = .uncorrectable)
    (others : ∀ l', o = some l' ∨ o' = some l' → l' ≠ l → EntrySound t l') :
    ((readOptEntry o t).1 || (readOptEntry o' (readOptEntry o t).2).1) = true
      ∧ (readOptEntry o' (readOptEntry o t).2).2 = t.rebuiltAt l := by
  by_cases first : o = some l
  · have read : readOptEntry o t = (true, t.rebuiltAt l) := by
      rw [first]
      exact readEntry_of_uncorrectable flawed
    rw [read]
    dsimp only
    rw [readOptEntry_of_sound fun l' e => rebuiltAt_sound (others l' (.inr e))]
    generalize t.rebuiltAt l = u
    exact ⟨rfl, rfl⟩
  · have read : readOptEntry o t = (false, t) :=
      readOptEntry_of_sound fun l' e => others l' (.inl e) fun same => first (same ▸ e)
    have read' : readOptEntry o' t = (true, t.rebuiltAt l) := by
      rw [named.resolve_left first]
      exact readEntry_of_uncorrectable flawed
    rw [read]
    dsimp only
    rw [read']
    generalize t.rebuiltAt l = u
    exact ⟨rfl, rfl⟩

end

/-! ## COMMIT's question (R113) -/

/-- The caller holds the fence lease at the fence generation, if the message has a fence. -/
def FenceCurrent (h : HostId) (m : Message) (t : State) : Prop := ∀ l g, m.fence = some (l, g) →
  (t.entry l).generation = g ∧ (HostSet.has (t.entry l).holders h = true ∨ (t.entry l).acts h = true)

theorem LeaseEntry.heldBy_iff (e : LeaseEntry) (h : HostId) :
    e.heldBy h = true ↔ HostSet.has e.holders h = true ∨ e.acts h = true := by
  rw [LeaseEntry.heldBy, Bool.or_eq_true]

section
variable {t : State} {h : HostId} {d : DescId} {m : Message} {l : LeaseId}

theorem fenceRefusal_of_current (current : FenceCurrent h m t) : fenceRefusal h m.fence t = none := by
  cases fence : m.fence with
  | none => rfl
  | some f =>
    obtain ⟨generation, held⟩ := current f.1 f.2 fence
    exact if_pos ⟨generation, (LeaseEntry.heldBy_iff ..).mpr held⟩

theorem fenceRefusal_of_stale {g : Word} (fence : m.fence = some (l, g)) (stale : ¬ FenceCurrent h m t) :
    fenceRefusal h m.fence t = some (.stale l (t.entry l).generation ((t.entry l).heldBy h)) := by
  rw [fence]
  refine if_neg fun ⟨generation, held⟩ => stale fun l' g' fence' => ?_
  rw [fence] at fence'
  cases fence'
  exact ⟨generation, (LeaseEntry.heldBy_iff ..).mp held⟩

theorem commitQuestion_of_uncorrectable (named : m.fence.map Prod.fst = some l ∨ m.carried = some l)
    (flawed : (t.dir.entries.get l).chk = .uncorrectable)
    (others : ∀ l', m.fence.map Prod.fst = some l' ∨ m.carried = some l' → l' ≠ l → EntrySound t l') :
    commitQuestion h d m t = (.damaged, t.rebuiltAt l) := by
  obtain ⟨either, last⟩ := readOptEntries_of_uncorrectable named flawed others
  unfold commitQuestion
  dsimp only
  rw [if_pos either, last]

theorem fence_sound (sound : ∀ l g, m.fence = some (l, g) → EntrySound t l) (l : LeaseId) (e : m.fence.map Prod.fst = some l) :
    EntrySound t l := by
  obtain ⟨⟨l', g⟩, fence, rfl⟩ := Option.map_eq_some_iff.mp e
  exact sound l' g fence

section
variable (fenceSound : ∀ l g, m.fence = some (l, g) → EntrySound t l) (carriedSound : ∀ l, m.carried = some l → EntrySound t l)
include fenceSound carriedSound

theorem commitQuestion_of_stale {g : Word} (fence : m.fence = some (l, g)) (stale : ¬ FenceCurrent h m t) :
    commitQuestion h d m t = (.stale l (t.entry l).generation ((t.entry l).heldBy h), t) := by
  unfold commitQuestion
  dsimp only
  rw [readOptEntry_of_sound (fence_sound fenceSound), readOptEntry_of_sound carriedSound, fenceRefusal_of_stale fence stale]
  rfl

variable (current : FenceCurrent h m t)
include current

theorem commitQuestion_of_no_lease (nothing : m.carried = none) : commitQuestion h d m t = (.pass none, t) := by
  unfold commitQuestion
  dsimp only
  rw [readOptEntry_of_sound (fence_sound fenceSound), readOptEntry_of_sound carriedSound, fenceRefusal_of_current current, nothing]
  rfl

variable (carried : m.carried = some l)
include carried

theorem commitQuestion_of_lease : commitQuestion h d m t =
    if (t.entry l).acts h = false then (.notHolder l, t)
    else if (t.entry l).transit ≠ none then (.inTransit l, t)
    else (.pass (some (l, (t.entry l).generation)),
      t.putEntry l { t.entry l with transit := some ⟨d, m.dest⟩, ownerPresent := true }) := by
  unfold commitQuestion
  dsimp only
  rw [readOptEntry_of_sound (fence_sound fenceSound), readOptEntry_of_sound carriedSound, fenceRefusal_of_current current, carried]
  simp only [Bool.or_self, Bool.false_eq_true, if_false, Bool.not_eq_true', ne_eq, ← Option.isSome_iff_ne_none]

end

end

/-! ## COMMIT at an assembling message (R112, R113, R114) -/

theorem readDesc_of_sound {t : State} (d : DescId) (sound : StoreSound t) : readDesc d t = (false, t) := by
  simp [readDesc, readDescCore_of_sound sound d]

theorem readDesc_of_uncorrectable {t : State} {d : DescId} (flawed : (t.store.descs.get d).chk = .uncorrectable) :
    readDesc d t = (true, (spaceScan (loseDescCore d t)).1) := by
  simp [readDesc, readDescCore, flawed]

/-- The reply to a COMMIT whose question is answered, the message placed when it passes. -/
def commitAnswered (h : HostId) (id : Nat) (d : DescId) (m : Message) : CommitAnswer × State → State
  | (.damaged, s) => s.reply h id .damaged []
  | (.stale l g held, s) => s.reply h id .stale [word l.val, g, word (if held then 1 else 0)]
  | (.notHolder l, s) => s.reply h id .notHolder [word l.val]
  | (.inTransit l, s) => s.reply h id .inTransit [word l.val]
  | (.pass c, s) => (placeMessage h d m s).reply h id .ok
      [word d.val, optLeaseWord (c.map Prod.fst), (c.map Prod.snd).getD noneWord, word (s.desc d).cellCount]

section
variable {s t : State} {h : HostId} {d : DescId} {m : Message} {id : Nat}

theorem exec_commit_of_taken (taken : s.takeTransferCommand h .commit = some (id, t)) :
    exec (.commit h) s = .next (commitTaken h id t) := by
  simp [exec, execCommit, taken]

theorem commitTaken_of_idle (idle : (t.stream h).assembling = none) : commitTaken h id t = t.reply h id .none [] := by
  simp only [commitTaken, idle]

theorem commitTaken_of_uncorrectable (assembling : (t.stream h).assembling = some d)
    (flawed : (t.store.descs.get d).chk = .uncorrectable) :
    commitTaken h id t = (spaceScan (loseDescCore d t)).1.reply h id .damaged [] := by
  simp only [commitTaken, assembling, readDesc_of_uncorrectable flawed]

theorem commitTaken_of_message (assembling : (t.stream h).assembling = some d) (msg : (t.desc d).msg = some m)
    (sound : StoreSound t) : commitTaken h id t = commitMessage h id d m t := by
  simp only [commitTaken, assembling, readDesc_of_sound d sound, msg]

theorem commitMessage_of_short (short : m.written ≠ m.length) :
    commitMessage h id d m t = t.reply h id .short [word m.written, word m.length] := if_pos short

section
variable (whole : m.written = m.length)
include whole

theorem commitMessage_of_no_peer (out : t.store.joined.get m.dest = none) :
    commitMessage h id d m t = t.reply h id .noPeer [word m.dest.val] := by
  rw [commitMessage, if_neg (not_not.mpr whole), if_pos (by simp [out])]

variable (peer : t.store.joined.get m.dest ≠ none)
include peer

theorem commitMessage_of_full (full : t.store.inboundLimit ≤ (t.queue m.dest).length) :
    commitMessage h id d m t = t.reply h id .queueFull [word t.store.inboundLimit] := by
  rw [commitMessage, if_neg (not_not.mpr whole), if_neg (by simpa using peer), if_pos full]

theorem commitMessage_of_room (room : (t.queue m.dest).length < t.store.inboundLimit) :
    commitMessage h id d m t = commitAnswered h id d m (commitQuestion h d m t) := by
  rw [commitMessage, if_neg (not_not.mpr whole), if_neg (by simpa using peer), if_neg room.not_ge]
  obtain ⟨answer, u⟩ := commitQuestion h d m t
  cases answer <;> rfl

end

end

/-- A message placed, as one update (R114). -/
theorem placeMessage_eq (h : HostId) (d : DescId) (m : Message) (u : State) : placeMessage h d m u = { u with store := { u.store with
    descs := upd u.store.descs d ⟨{ u.desc d with state := .queued }, .sound⟩
    streams := upd u.store.streams h { u.stream h with assembling := none }
    inbound := upd u.store.inbound m.dest ((u.store.inbound.get m.dest).push d m.cls) } } := rfl

/-- Settles O35: the checks in order, then COMMIT's question; the loss of a descriptor that carries nothing. -/
theorem commitRefusedOrLost : Obligations.CommitRefusedOrLost := by
  intro s t h id taken answer
  have runs := exec_commit_of_taken taken
  have answer_of {st : Status} {ws : List Word} (is : commitTaken h id t = t.reply h id st ws) : answer st ws :=
    runs.trans (congrArg Host.Outcome.next is)
  refine ⟨fun idle => answer_of (commitTaken_of_idle idle), ?_, fun d m assembling msg sound => ?_⟩
  · intro d assembling flawed mapSound entries u
    rw [runs, commitTaken_of_uncorrectable assembling flawed,
      loseDescCore_of_unnamed mapSound (fun l => (entries l).1) fun l => (entries l).2]
    rfl
  have message := commitTaken_of_message (id := id) assembling msg sound
  refine ⟨fun short => answer_of (message.trans (commitMessage_of_short short)), fun whole =>
    ⟨fun out => answer_of (message.trans (commitMessage_of_no_peer whole out)), fun peer =>
      ⟨fun full => answer_of (message.trans (commitMessage_of_full whole peer full)), fun room => ?_⟩⟩⟩
  have asked := message.trans (commitMessage_of_room whole peer room)
  refine ⟨fun l named flawed others => ?_, ?_⟩
  · rw [runs, asked, commitQuestion_of_uncorrectable named flawed others]
    rfl
  intro fenceSound carriedSound current
  refine ⟨fun l g fence stale => ?_, fun current l carried => ⟨fun other => ?_, fun acts transit => ?_⟩⟩
  · refine answer_of ?_
    rw [asked, commitQuestion_of_stale fenceSound carriedSound fence stale, commitAnswered,
      apply_ite word]
    simp only [LeaseEntry.heldBy_iff]
    rfl
  · refine answer_of ?_
    rw [asked, commitQuestion_of_lease fenceSound carriedSound current carried, if_pos other, commitAnswered]
  · refine answer_of ?_
    rw [asked, commitQuestion_of_lease fenceSound carriedSound current carried, if_neg (by simp [acts]), if_pos transit,
      commitAnswered]

/-- Settles O36: COMMIT's question passed, with nothing carried or with a lease. -/
theorem commitPlacesMessage : Obligations.CommitPlacesMessage := by
  intro s t h id d m taken assembling msg sound whole peer room fence q placed
  have runs : exec (.commit h) s = .next (commitAnswered h id d m (commitQuestion h d m t)) := by
    rw [exec_commit_of_taken taken, commitTaken_of_message assembling msg sound, commitMessage_of_room whole peer room]
  have fenceSound : ∀ l g, m.fence = some (l, g) → EntrySound t l := fun l g e => (fence l g e).1
  have current : FenceCurrent h m t := fun l g e => (fence l g e).2
  have place (u : State) (same : u.store = t.store) : placeMessage h d m u = placed u := by
    rw [placeMessage_eq, State.desc, State.stream, same]
    cases cls : m.cls <;> simp only [placed, cls] <;> rfl
  refine ⟨fun nothing => ?_, fun l carried entrySound acts transit => ?_⟩
  · rw [runs, commitQuestion_of_no_lease fenceSound (by simp [nothing]) current nothing, commitAnswered, place t rfl]
    rfl
  · have carriedSound : ∀ l, m.carried = some l → EntrySound t l := fun l' e => by
      rw [carried] at e
      cases e
      exact entrySound
    rw [runs, commitQuestion_of_lease fenceSound carriedSound current carried, if_neg (by simp [acts]), if_neg (by simp [transit]),
      commitAnswered, place (t.putEntry l _) rfl]
    rfl

end Sys2Proof.Machine
end

section
/-! PROOF. ACCEPT (O39) and REFUSE (O40) of the open message, by what became of the lease it carries. -/

namespace Sys2Proof.Machine

open Sys2Proof

/-! ## A command on the open message (R123, R124) -/

section
variable {s t : State} {h : HostId} {id : Nat} {d : DescId} {m : Message} {l : LeaseId} (work : DescId → Message → State → State)

theorem onOpenMessage_of_closed (closed : (t.stream h).openDesc = none) : onOpenMessage h id work t = t.reply h id .none [] := by
  simp only [onOpenMessage, closed]

theorem onOpenMessage_of_uncorrectable (opened : (t.stream h).openDesc = some d)
    (flawed : (t.store.descs.get d).chk = .uncorrectable) :
    onOpenMessage h id work t = (spaceScan (loseDescCore d t)).1.reply h id .damaged [] := by
  simp only [onOpenMessage, opened, readDesc_of_uncorrectable flawed]

theorem onOpenMessage_of_message (opened : (t.stream h).openDesc = some d) (msg : (t.desc d).msg = some m)
    (sound : StoreSound t) : onOpenMessage h id work t = work d m t := by
  simp only [onOpenMessage, opened, readDesc_of_sound d sound, msg]

theorem exec_accept_of_taken (taken : s.takeTransferCommand h .accept = some (id, t)) :
    exec (.accept h) s = .next (onOpenMessage h id (acceptMessage h id) t) := by
  simp [exec, execAccept, taken]

theorem exec_refuse_of_taken (taken : s.takeStoreCommand h .refuse [] = some (id, t)) :
    exec (.refuse h) s = .next (onOpenMessage h id (refuseMessage h id) t) := by
  simp [exec, execRefuse, taken]

theorem rebuiltAt_store (t : State) (l : LeaseId) : (t.rebuiltAt l).store = t.store := by
  rw [State.rebuiltAt, dirFinding_store, rebuildEntry_store]

/-- The message without its lease after a rebuild. -/
theorem clearCarried_rebuiltAt (d : DescId) (m : Message) (t : State) (l : LeaseId) : clearCarried d m (t.rebuiltAt l) =
    (t.rebuiltAt l).putDesc d { t.desc d with msg := some { m with carried := none } } := by
  rw [clearCarried, State.desc, rebuiltAt_store, State.desc]

/-! ## ACCEPT (R123, R129, R130) -/

/-- The words of an ACCEPT of a message without a lease to take. -/
theorem finishAccept_of_none (t : State) (h : HostId) (id : Nat) (d : DescId) : finishAccept h id d none noneWord 0#32 false t =
    (spaceScan (freeDesc d t)).1.reply h id .ok
      [0#16, 0xFFFF#16, 0xFFFF#16, if (t.desc d).damaged = true then 1#16 else 0#16, 0#16, 0#16, 0#16] := by
  simp only [finishAccept, word_waited]
  rfl

theorem acceptMessage_of_no_lease (nothing : m.carried = none) :
    acceptMessage h id d m t = finishAccept h id d none noneWord 0#32 false t := by
  simp only [acceptMessage, nothing]

section
variable (carried : m.carried = some l)
include carried

theorem acceptMessage_of_uncorrectable (flawed : (t.dir.entries.get l).chk = .uncorrectable) :
    acceptMessage h id d m t = ((t.rebuiltAt l).putDesc d
      { t.desc d with msg := some { m with carried := none } }).reply h id .damaged [] := by
  simp only [acceptMessage, carried, transferAccepted, readEntry_of_uncorrectable flawed, clearCarried_rebuiltAt]

variable (sound : EntrySound t l)
include sound

theorem acceptMessage_of_gone (gone : (t.entry l).transit.map Transit.desc ≠ some d) :
    acceptMessage h id d m t = finishAccept h id d none noneWord 0#32 false t := by
  have other := mt (LeaseEntry.carriedIn_iff _ d).mp gone
  simp only [acceptMessage, carried, transferAccepted, readEntry_sound sound, if_neg other]

end

/-- The lease taken by the recipient, but for the notice to a sender still present (R129, R130). -/
def leaseTaken (l : LeaseId) (h : HostId) (t : State) : State :=
  let u := t.putEntry l { (((t.entry l).enterExclusive h).dropWaiter h) with transit := none, ownerPresent := false }
  if t.claimsLease h l then u.setWait h none else u

theorem leaseTaken_store (l : LeaseId) (h : HostId) (t : State) : (leaseTaken l h t).store = t.store := by
  unfold leaseTaken
  dsimp only
  split <;> rfl

/-- The words of an ACCEPT that takes lease l. -/
def acceptWords (t : State) (h : HostId) (d : DescId) (l : LeaseId) : List Word :=
  [1#16, word l.val, (t.entry l).generation + 1#16, if (t.desc d).damaged = true then 1#16 else 0#16,
    highWord (t.entry l).value, lowWord (t.entry l).value, if t.claimsLease h l then 1#16 else 0#16]

theorem finishAccept_of_lease {u : State} (same : u.store = t.store) :
    finishAccept h id d (some l) ((t.entry l).generation + 1#16) (t.entry l).value (t.claimsLease h l) u =
      (spaceScan (freeDesc d u)).1.reply h id .ok (acceptWords t h d l) := by
  have desc : u.desc d = t.desc d := by rw [State.desc, same, State.desc]
  simp only [finishAccept, word_waited, desc]
  rfl

theorem completeEntry_of_present {g : HostId} (owner : (t.entry l).owner = some g) (present : (t.entry l).ownerPresent = true) :
    completeEntry l h t = (.completed ((t.entry l).generation + 1#16) (t.entry l).value (t.claimsLease h l),
      (leaseTaken l h t).offerDir g (.handed l h ((t.entry l).generation + 1#16))) := by
  simp only [completeEntry, owner, present]
  rfl

theorem completeEntry_of_absent (absent : (t.entry l).ownerPresent = false) :
    completeEntry l h t = (.completed ((t.entry l).generation + 1#16) (t.entry l).value (t.claimsLease h l), leaseTaken l h t) := by
  simp only [completeEntry, absent]
  cases (t.entry l).owner <;> rfl

/-- An acceptance completed by the directory. -/
theorem acceptMessage_of_lease {u : State} (carried : m.carried = some l) (sound : EntrySound t l)
    (named : (t.entry l).transit.map Transit.desc = some d) (same : u.store = t.store)
    (completed : completeEntry l h t
      = (.completed ((t.entry l).generation + 1#16) (t.entry l).value (t.claimsLease h l), u)) :
    acceptMessage h id d m t = (spaceScan (freeDesc d u)).1.reply h id .ok (acceptWords t h d l) := by
  have here := (LeaseEntry.carriedIn_iff _ d).mpr named
  simp only [acceptMessage, carried, transferAccepted, readEntry_sound sound, if_pos here, completed]
  exact finishAccept_of_lease same

/-! ## REFUSE (R124, R126, R131, R73) -/

/-- A message refused whose lease's transfer came to this end. -/
theorem refuseMessage_of_end {u : State} {e : TransferEnd} {passed : Bool}
    (pass : passed = decide (t.store.joined.get (t.desc d).source = some (t.desc d).session)) (failed : failCarried d m t = (e, u))
    (same : u.store = t.store) (ends : e ≠ .damaged) : refuseMessage h id d m t =
      (spaceScan (if passed then (freeDesc d u).offerStore (t.desc d).source (.bounced m.tag m.dest .refused (returnedLease m.carried e))
        else freeDesc d u)).1.reply h id .ok
          [word (refuseCode e), optLeaseWord (refusedLease m.carried e), if passed then 1#16 else 0#16] := by
  have desc : u.desc d = t.desc d := by rw [State.desc, same, State.desc]
  have joined : (freeDesc d u).store.joined = t.store.joined := by rw [(freeDesc_records d u).joined, same]
  unfold refuseMessage
  rw [failed]
  dsimp only
  rw [if_neg ends, desc, bounce, passesFilter, passesFilter, joined, same, ← pass]
  simp only [word_waited]

theorem failCarried_of_none (nothing : m.carried = none) : failCarried d m t = (.gone, t) := by
  simp only [failCarried, nothing]

section
variable (carried : m.carried = some l)
include carried

theorem refuseMessage_of_uncorrectable (flawed : (t.dir.entries.get l).chk = .uncorrectable) :
    refuseMessage h id d m t = ((t.rebuiltAt l).putDesc d
      { t.desc d with msg := some { m with carried := none } }).reply h id .damaged [] := by
  simp only [refuseMessage, failCarried, carried, transferFailed, readEntry_of_uncorrectable flawed, clearCarried_rebuiltAt, if_true]

variable (sound : EntrySound t l)
include sound

theorem failCarried_of_gone (gone : (t.entry l).transit.map Transit.desc ≠ some d) : failCarried d m t = (.gone, t) := by
  have other := mt (LeaseEntry.carriedIn_iff _ d).mp gone
  simp only [failCarried, carried, transferFailed, readEntry_sound sound, if_neg other]

variable (named : (t.entry l).transit.map Transit.desc = some d)
include named

theorem failCarried_of_present (present : (t.entry l).ownerPresent = true) : failCarried d m t =
    (.returned, t.putEntry l { t.entry l with transit := none, ownerPresent := false }) := by
  have here := (LeaseEntry.carriedIn_iff _ d).mpr named
  simp only [failCarried, carried, transferFailed, readEntry_sound sound, if_pos here, failEntry, present, if_true]

theorem failCarried_of_absent (absent : (t.entry l).ownerPresent = false) : failCarried d m t =
    (.stranded, (t.entry l).waiters.foldl (fun u w => u.offerDir w.1 (.stranded l (t.entry l).owner .handoff))
      (t.putEntry l { t.entry l with state := .stranded, cause := some .handoff, transit := none, ownerPresent := false })) := by
  have here := (LeaseEntry.carriedIn_iff _ d).mpr named
  simp only [failCarried, carried, transferFailed, readEntry_sound sound, if_pos here, failEntry, absent, Bool.false_eq_true,
    if_false, strandEntry, offerStranded, State.putEntry_entry_same]

end

end

/-- Settles O39: the open message by its read, then by what became of the lease it carries. -/
theorem acceptTakesMessage : Obligations.AcceptTakesMessage := by
  intro s t h id taken
  have runs := exec_accept_of_taken taken
  refine ⟨fun closed => by rw [runs, onOpenMessage_of_closed _ closed],
    fun d opened flawed => by rw [runs, onOpenMessage_of_uncorrectable _ opened flawed], fun d m opened msg sound => ?_⟩
  intro flag done
  have accepted : exec (.accept h) s = .next (acceptMessage h id d m t) := by
    rw [runs, onOpenMessage_of_message _ opened msg sound]
  have plain (is : acceptMessage h id d m t = finishAccept h id d none noneWord 0#32 false t) :
      done t [0#16, 0xFFFF#16, 0xFFFF#16, flag, 0#16, 0#16, 0#16] := by
    rw [finishAccept_of_none] at is
    exact accepted.trans (congrArg Host.Outcome.next is)
  refine ⟨fun nothing => plain (acceptMessage_of_no_lease nothing), fun l carried => ⟨fun flawed => ?_, fun entrySound =>
    ⟨fun gone => plain (acceptMessage_of_gone carried entrySound gone), fun named => ?_⟩⟩⟩
  · rw [accepted, acceptMessage_of_uncorrectable carried flawed]
    rfl
  · refine ⟨highWord (t.entry l).value, lowWord (t.entry l).value, toNat_eq_highWord_lowWord _, ?_⟩
    intro g waited u v ws
    refine ⟨fun sender owner present => ?_, fun absent => ?_⟩
    · have store (n : Notice) : ((leaseTaken l h t).offerDir sender n).store = t.store := leaseTaken_store l h t
      exact accepted.trans (congrArg Host.Outcome.next (acceptMessage_of_lease carried entrySound named (store _)
        (completeEntry_of_present owner present)))
    · exact accepted.trans (congrArg Host.Outcome.next (acceptMessage_of_lease carried entrySound named
        (leaseTaken_store l h t) (completeEntry_of_absent absent)))

/-- Settles O40: the open message by its read, then by the end of its lease's transfer. -/
theorem refuseSendsBack : Obligations.RefuseSendsBack := by
  intro s t h id taken
  have runs := exec_refuse_of_taken taken
  refine ⟨fun closed => by rw [runs, onOpenMessage_of_closed _ closed],
    fun d opened flawed => by rw [runs, onOpenMessage_of_uncorrectable _ opened flawed], fun d m opened msg sound => ?_⟩
  intro x passed done
  have refused : exec (.refuse h) s = .next (refuseMessage h id d m t) := by
    rw [runs, onOpenMessage_of_message _ opened msg sound]
  have done_of {u : State} {e : TransferEnd} (failed : failCarried d m t = (e, u)) (ends : e ≠ .damaged) :
      done u (word (refuseCode e)) (optLeaseWord (refusedLease m.carried e)) (returnedLease m.carried e) := by
    have same : u.store = t.store := by
      have kept := failCarried_store d m t
      rwa [failed] at kept
    exact refused.trans (congrArg Host.Outcome.next (refuseMessage_of_end (passed := passed) rfl failed same ends))
  refine ⟨fun nothing => ?_, fun l carried => ⟨fun flawed => ?_, fun entrySound => ⟨fun gone => ?_, fun named present => ?_,
    fun named absent => ?_⟩⟩⟩
  · exact done_of (e := .gone) (failCarried_of_none nothing) nofun
  · rw [refused, refuseMessage_of_uncorrectable carried flawed]
    rfl
  · exact done_of (e := .gone) (failCarried_of_gone carried entrySound gone) nofun
  · have ended := done_of (failCarried_of_present carried entrySound named present) nofun
    rwa [carried] at ended
  · have ended := done_of (failCarried_of_absent carried entrySound named absent) nofun
    rw [carried, ← absent] at ended
    exact ended

end Sys2Proof.Machine
end

section
/-! PROOF. OPEN (O38): the checks, the look-up of the head's positions, the questions about its leases, and the head opened
or discarded. -/

namespace Sys2Proof.Machine

open Sys2Proof

section
variable {s t : State} {h : HostId} {id : Nat} {d : DescId} {m : Message} {l : LeaseId}

/-! ## The questions of OPEN (R120, R159) -/

theorem openQuestion_of_uncorrectable (named : m.fence.map Prod.fst = some l ∨ m.carried = some l)
    (flawed : (t.dir.entries.get l).chk = .uncorrectable)
    (others : ∀ l', m.fence.map Prod.fst = some l' ∨ m.carried = some l' → l' ≠ l → EntrySound t l') :
    (openQuestion d m t).1.damaged = true ∧ (openQuestion d m t).2 = t.rebuiltAt l :=
  readOptEntries_of_uncorrectable named flawed others

/-- The lease that the message still carries in this descriptor. -/
def stillCarried (d : DescId) (m : Message) (t : State) : Option LeaseId :=
  m.carried.filter fun l => decide ((t.entry l).transit.map Transit.desc = some d)

/-- The fence lease is at the fence generation. -/
def fenceIsCurrent (m : Message) (t : State) : Bool := m.fence.any fun f => decide ((t.entry f.1).generation = f.2)

theorem carriedIn_eq_decide (e : LeaseEntry) (d : DescId) :
    e.carriedIn d = decide (e.transit.map Transit.desc = some d) :=
  Bool.eq_iff_iff.mpr ((e.carriedIn_iff d).trans decide_eq_true_iff.symm)

theorem openQuestion_of_sound (fenceSound : ∀ l g, m.fence = some (l, g) → EntrySound t l)
    (carriedSound : ∀ l, m.carried = some l → EntrySound t l) :
    openQuestion d m t = (⟨false, fenceIsCurrent m t, stillCarried d m t⟩, t) := by
  unfold openQuestion fenceIsCurrent stillCarried
  dsimp only
  rw [readOptEntry_of_sound (fence_sound fenceSound), readOptEntry_of_sound carriedSound]
  cases m.fence <;> cases m.carried <;> simp [carriedIn_eq_decide, Option.filter]

/-! ## The positions of the head (R163) -/

/-- Position p of descriptor d has no cell. -/
def positionLost (d : DescId) (t : State) (p : Nat) : Bool := allCells.all fun c => decide (t.mapEntry c ≠ .owned d p)

theorem lookupCell_eq_none_iff (d : DescId) (p : Nat) (t : State) :
    lookupCell d p t = none ↔ positionLost d t p = true := by
  simp [lookupCell, positionLost, List.find?_eq_none]

theorem lookupCell_isNone (d : DescId) (p : Nat) (t : State) : (lookupCell d p t).isNone = positionLost d t p :=
  Bool.eq_iff_iff.mpr (Option.isNone_iff_eq_none.trans (lookupCell_eq_none_iff d p t))

/-- A position of the descriptor has no cell. -/
def someLost (d : DescId) (t : State) : Bool := (List.range (t.desc d).cellCount).any (positionLost d t)

/-- The head with its loss of a cell recorded. -/
def lossMarked (d : DescId) (t : State) : State := if someLost d t = true then markDamaged d t else t

theorem headLooked_of_sound (sound : StoreSound t) : headLooked d t = lossMarked d t := by
  unfold headLooked
  rw [readMapFor_sound d sound.2]
  simp only [lookupCell_isNone]
  rfl

theorem lossMarked_dir (d : DescId) (t : State) : (lossMarked d t).dir = t.dir := by
  unfold lossMarked
  split <;> rfl

theorem lossMarked_map (d : DescId) (t : State) : (lossMarked d t).store.map = t.store.map := by
  unfold lossMarked
  split <;> rfl

theorem lossMarked_lookupCell (d : DescId) (p : Nat) (t : State) : lookupCell d p (lossMarked d t) = lookupCell d p t := by
  unfold lookupCell State.mapEntry
  rw [lossMarked_map]

theorem lossMarked_fenceIsCurrent (d : DescId) (m : Message) (t : State) :
    fenceIsCurrent m (lossMarked d t) = fenceIsCurrent m t := by
  unfold lossMarked
  split <;> rfl

theorem lossMarked_stillCarried (d : DescId) (m : Message) (t : State) :
    stillCarried d m (lossMarked d t) = stillCarried d m t := by
  unfold lossMarked
  split <;> rfl

theorem lossMarked_desc (d : DescId) (t : State) :
    (lossMarked d t).desc d = { t.desc d with damaged := (t.desc d).damaged || someLost d t } := by
  unfold lossMarked
  cases someLost d t with
  | true => simp [markDamaged]
  | false => simp

theorem lossMarked_putDesc (d : DescId) (t : State) (x : Descriptor) : (lossMarked d t).putDesc d x = t.putDesc d x := by
  unfold lossMarked
  split
  · simp only [markDamaged, State.putDesc, upd_upd]
  · rfl

/-- The head has nothing left to deliver. -/
def Emptied (d : DescId) (m : Message) (t : State) : Prop :=
  0 < m.length ∧ ∀ p < (t.desc d).cellCount, positionLost d t p = true

theorem not_emptied (left : m.length = 0 ∨ ∃ p < (t.desc d).cellCount, positionLost d t p = false) : ¬ Emptied d m t := by
  rintro ⟨long, all⟩
  rcases left with none | ⟨p, lt, kept⟩
  · omega
  · rw [all p lt] at kept
    cases kept

theorem emptied_iff_lookups : Emptied d m t ↔
    0 < m.length ∧ ∀ p ∈ List.range (t.desc d).cellCount, lookupCell d p (lossMarked d t) = none := by
  simp only [Emptied, lossMarked_lookupCell, lookupCell_eq_none_iff, List.mem_range]

section
variable (sound : StoreSound t)
include sound

theorem openHead_of_emptied (emptied : Emptied d m t) :
    openHead h id d m t = (discardEmpty d m (lossMarked d t)).reply h id .damaged [] := by
  rw [openHead_eq, headLooked_of_sound sound, readMapFor_sound d sound.2, openLooked, if_pos (emptied_iff_lookups.mp emptied)]

theorem openHead_of_uncorrectable (left : ¬ Emptied d m t) (named : m.fence.map Prod.fst = some l ∨ m.carried = some l)
    (flawed : (t.dir.entries.get l).chk = .uncorrectable)
    (others : ∀ l', m.fence.map Prod.fst = some l' ∨ m.carried = some l' → l' ≠ l → EntrySound t l') :
    openHead h id d m t = ((lossMarked d t).rebuiltAt l).reply h id .damaged [] := by
  have flawed' : ((lossMarked d t).dir.entries.get l).chk = .uncorrectable := by rwa [lossMarked_dir]
  obtain ⟨damaged, last⟩ := openQuestion_of_uncorrectable (d := d) named flawed' fun l' e ne => by
    rw [EntrySound, lossMarked_dir]
    exact others l' e ne
  rw [openHead_eq, headLooked_of_sound sound, readMapFor_sound d sound.2, openLooked, if_neg (mt emptied_iff_lookups.mpr left),
    if_pos damaged, last]

variable (fenceSound : ∀ l g, m.fence = some (l, g) → EntrySound t l) (carriedSound : ∀ l, m.carried = some l → EntrySound t l)
include fenceSound carriedSound

theorem openHead_of_sound (left : ¬ Emptied d m t) : openHead h id d m t =
    (openedAt h d m (stillCarried d m t) (lossMarked d t)).reply h id .ok
      (openWords d ((lossMarked d t).desc d) m ⟨false, fenceIsCurrent m t, stillCarried d m t⟩) := by
  have question : openQuestion d m (lossMarked d t) = (⟨false, fenceIsCurrent m t, stillCarried d m t⟩, lossMarked d t) := by
    rw [openQuestion_of_sound (by simpa only [EntrySound, lossMarked_dir] using fenceSound)
      (by simpa only [EntrySound, lossMarked_dir] using carriedSound)]
    rw [lossMarked_fenceIsCurrent, lossMarked_stillCarried]
  rw [openHead_eq, headLooked_of_sound sound, readMapFor_sound d sound.2, openLooked, if_neg (mt emptied_iff_lookups.mpr left),
    question]
  rfl

end

/-- The words of an OPEN, the class and the flags bit by bit. -/
theorem openWords_lossMarked (d : DescId) (t : State) (m : Message) (current : Bool) (carried : Option LeaseId) :
    openWords d ((lossMarked d t).desc d) m ⟨false, current, carried⟩ =
      [word ((t.desc d).source.val + 256 * (t.desc d).session), m.tag, word m.length, optLeaseWord (m.fence.map Prod.fst),
        (m.fence.map Prod.snd).getD 0#16, optLeaseWord carried,
        word ((if m.cls = MsgClass.urgent then 1 else 0) + (if current then 2 else 0)
          + (if (t.desc d).damaged || someLost d t then 4 else 0) + 256 * d.val)] := by
  have code : m.cls.code = if m.cls = MsgClass.urgent then 1 else 0 := by cases m.cls <;> rfl
  rw [openWords, lossMarked_desc, code]

theorem openedAt_lossMarked (h : HostId) (d : DescId) (m : Message) (carried : Option LeaseId) (t : State) :
    openedAt h d m carried (lossMarked d t) = { t with store := { t.store with
      descs := upd t.store.descs d ⟨{ t.desc d with
        state := .opened, damaged := (t.desc d).damaged || someLost d t, msg := some { m with carried := carried } }, .sound⟩
      streams := upd t.store.streams h { t.stream h with openDesc := some d, readPos := 0 } } } := by
  have stream : (lossMarked d t).stream h = t.stream h := by
    unfold lossMarked
    split <;> rfl
  rw [openedAt, lossMarked_putDesc, lossMarked_desc, stream]
  rfl

/-! ## A head discarded (R163): its loss of a cell is recorded in a descriptor that is freed -/

theorem putDesc_foldl_offerDir (t : State) (d : DescId) (x : Descriptor) (n : Notice) (ws : List (HostId × LeaseMode)) :
    ws.foldl (fun u w => u.offerDir w.1 n) (t.putDesc d x) = (ws.foldl (fun u w => u.offerDir w.1 n) t).putDesc d x := by
  induction ws generalizing t with
  | nil => rfl
  | cons w ws ih => exact ih (t.offerDir w.1 n)

theorem failCarried_putDesc (x : Descriptor) (carriedSound : ∀ l, m.carried = some l → EntrySound t l) :
    failCarried d m (t.putDesc d x) = ((failCarried d m t).1, (failCarried d m t).2.putDesc d x) := by
  cases carried : m.carried with
  | none => rw [failCarried_of_none carried, failCarried_of_none carried]
  | some l =>
    have sound := carriedSound l carried
    have sound' : EntrySound (t.putDesc d x) l := sound
    by_cases named : (t.entry l).transit.map Transit.desc = some d
    · cases present : (t.entry l).ownerPresent with
      | true =>
        rw [failCarried_of_present carried sound named present, failCarried_of_present carried sound' named present]
        rfl
      | false =>
        rw [failCarried_of_absent carried sound named present, failCarried_of_absent carried sound' named present]
        exact congrArg _ (putDesc_foldl_offerDir (t.putEntry l _) ..)
    · rw [failCarried_of_gone carried sound named, failCarried_of_gone carried sound' named]

theorem freeDesc_putDesc (x : Descriptor) (mapSound : ∀ c, (t.store.map.get c).chk = .sound) :
    freeDesc d (t.putDesc d x) = freeDesc d t := by
  have mapSound' : ∀ c, ((t.putDesc d x).store.map.get c).chk = .sound := mapSound
  have map : mapFreed (t.putDesc d x) d 0 = mapFreed t d 0 := rfl
  rw [freeDesc_of_soundMap d mapSound, freeDesc_of_soundMap d mapSound', clearDesc_eq, clearDesc_eq, map]
  simp only [State.putDesc, upd_upd]

theorem discardEmpty_lossMarked (sound : StoreSound t) (carriedSound : ∀ l, m.carried = some l → EntrySound t l) :
    discardEmpty d m (lossMarked d t) = (spaceScan (bounce (t.desc d) m .lost
      (returnedLease m.carried (failCarried d m t).1) (freeDesc d (failCarried d m t).2))).1 := by
  unfold lossMarked
  split
  · have mapSound : ∀ c, ((failCarried d m t).2.store.map.get c).chk = .sound := by
      rw [failCarried_store]
      exact sound.2
    rw [discardEmpty, markDamaged, failCarried_putDesc _ carriedSound]
    dsimp only
    rw [freeDesc_putDesc _ mapSound, State.putDesc_desc_same]
    rfl
  · rfl

/-! ## OPEN taken by the store (R119) -/

theorem exec_openMessage_of_taken (taken : s.takeStoreCommand h .openMessage [] = some (id, t)) :
    exec (.openMessage h) s = .next (openTaken h id t) := by
  simp [exec, execOpen, taken]

theorem openTaken_of_open (opened : (t.stream h).openDesc ≠ none) : openTaken h id t = t.reply h id .state [] := by
  rw [openTaken, if_pos (Option.isSome_iff_ne_none.mpr opened)]

section
variable (closed : (t.stream h).openDesc = none)
include closed

theorem openTaken_of_empty (empty : t.queue h = []) : openTaken h id t = t.reply h id .none [] := by
  simp only [openTaken, closed, empty, Option.isSome_none, Bool.false_eq_true, if_false]

variable {rest : List DescId} (queue : t.queue h = d :: rest)
include queue

theorem openTaken_of_uncorrectable (flawed : (t.store.descs.get d).chk = .uncorrectable) :
    openTaken h id t = (spaceScan (loseDescCore d t)).1.reply h id .damaged [] := by
  simp only [openTaken, closed, queue, readDesc_of_uncorrectable flawed, Option.isSome_none, Bool.false_eq_true, if_false]

theorem openTaken_of_head (msg : (t.desc d).msg = some m) (sound : StoreSound t) : openTaken h id t = openHead h id d m t := by
  simp only [openTaken, closed, queue, readDesc_of_sound d sound, msg, Option.isSome_none, Bool.false_eq_true, if_false]

end

end

/-- Settles O38: the checks, then the head by the cells that it has lost and by the reads of its leases. -/
theorem openTakesHead : Obligations.OpenTakesHead := by
  intro s t h id taken
  have runs := exec_openMessage_of_taken taken
  refine ⟨fun opened => by rw [runs, openTaken_of_open opened], fun closed empty => by rw [runs, openTaken_of_empty closed empty],
    fun closed d rest queue flawed => by rw [runs, openTaken_of_uncorrectable closed queue flawed],
    fun closed d rest m queue msg sound => ?_⟩
  have heads : exec (.openMessage h) s = .next (openHead h id d m t) := by
    rw [runs, openTaken_of_head closed queue msg sound]
  intro x lost damaged carried current
  refine ⟨fun left l named flawed others => ?_, fun fenceSound carriedSound => ⟨fun long all => ?_, fun left => ?_⟩⟩
  · exact heads.trans (congrArg Host.Outcome.next (openHead_of_uncorrectable sound (not_emptied left) named flawed others))
  · refine heads.trans (congrArg Host.Outcome.next ?_)
    rw [openHead_of_emptied sound ⟨long, all⟩, discardEmpty_lossMarked sound carriedSound]
  · refine heads.trans (congrArg Host.Outcome.next ?_)
    rw [openHead_of_sound sound fenceSound carriedSound (not_emptied left), openWords_lossMarked, openedAt_lossMarked]
    rfl

end Sys2Proof.Machine
end
